-- ==== Sys2Proof/Word.lean ====
section
/-!
DEFINITION. The word types of the S-DES core: every width of 00_scope.md R7 and R8. Register bit `v[0]` is the
least significant bit (R9); sequence positions are in Machine/Operands.lean.
-/

namespace Sys2Proof

/-- A 10-bit MasterKey (R7, KEY_W). -/
abbrev Key := BitVec 10

/-- An 8-bit round key (R7, RK_W). -/
abbrev RoundKey := BitVec 8

/-- An 8-bit block, one byte (R7, BLOCK_W; R41: the block register and the byte are the same value). -/
abbrev Block := BitVec 8

/-- A 4-bit half of a block (R7). -/
abbrev Half := BitVec 4

/-- A 12-bit command word (R8, CMD_W; 30_encoding.md R50). -/
abbrev CmdWord := BitVec 12

/-- A permutation table of `m` sequence positions into an `n`-bit input (R11). -/
abbrev Table (n m : Nat) := Vector (Fin n) m

end Sys2Proof
end

