-- ==== Sys2Proof/Machine/Operands.lean ====
section
/-!
DEFINITION. Bit sequences, permutations, rotations and halves (00_scope.md R9 to R12, 20_memory.md R41,
43_feistel_round.md R130). Pure functions (R14).
-/

namespace Sys2Proof.Machine

/-- Sequence position `i` of `v`: register bit `v[n-1-i]`, so position 0 is the most significant bit (R9). -/
def seq {n : Nat} (v : BitVec n) (i : Fin n) : Bool := v.getLsbD (n - 1 - i.val)

/-- The `m`-bit value whose sequence position `i` is `f i` (R9). -/
def ofSeq : (m : Nat) → (Fin m → Bool) → BitVec m
  | 0, _ => 0#0
  | m + 1, f => BitVec.cons (f 0) (ofSeq m fun i => f i.succ)

/-- R11's `Gather_T`: output position `i` is input position `T[i]` (0-indexed, 90_conflicts.md C1). -/
def gather {n m : Nat} (T : Table n m) (v : BitVec n) : BitVec m := ofSeq m fun i => seq v (T.get i)

/-- R12's `rol_w(v, s)`: rotation toward the most significant bit, for `s < w`. -/
def rol {w : Nat} (v : BitVec w) (s : Nat) : BitVec w := v <<< s ||| v >>> (w - s)

/-- R130's XOR, bit by bit. -/
def xorBits {n : Nat} (a b : BitVec n) : BitVec n := a ^^^ b

/-- Left half of a block: `x[7:4]`, sequence positions 0 to 3 (00_scope.md glossary). -/
def leftHalf (x : Block) : Half := x.extractLsb' 4 4

/-- Right half of a block: `x[3:0]`, sequence positions 4 to 7 (00_scope.md glossary). -/
def rightHalf (x : Block) : Half := x.extractLsb' 0 4

/-- Left half of a 10-bit key quantity: `v[9:5]` (40_key_schedule.md R71). -/
def leftKeyHalf (v : Key) : BitVec 5 := v.extractLsb' 5 5

/-- Right half of a 10-bit key quantity: `v[4:0]` (R71). -/
def rightKeyHalf (v : Key) : BitVec 5 := v.extractLsb' 0 5

/-- R41's inverse conversion: shift the sequence's bits in one after another, `B <- (B << 1) | bit`. -/
def shiftIn (bits : List Bool) : BitVec 8 :=
  bits.foldl (fun b x => b <<< 1 ||| (BitVec.ofBool x).zeroExtend 8) 0#8

/-- The block sequence of a byte, position 0 first (R41). -/
def byteSeq (b : BitVec 8) : List Bool := (List.finRange 8).map (seq b)

end Sys2Proof.Machine
end

