-- ==== Sys2Proof/Machine/Permutation.lean ====
section
/-!
DEFINITION. PermutationNetwork (41_permutation_network.md R90 to R93), the tables as the spec prints them.
-/

namespace Sys2Proof.Machine

/-- T_IP (R90). -/
def tableIP : Table 8 8 := #v[1, 5, 2, 0, 3, 7, 4, 6]

/-- T_IPI (R91). -/
def tableIPI : Table 8 8 := #v[3, 0, 2, 4, 6, 1, 7, 5]

/-- T_EP (R92). -/
def tableEP : Table 4 8 := #v[3, 0, 1, 2, 1, 2, 3, 0]

/-- T_P4 (R93). -/
def tableP4 : Table 4 4 := #v[1, 3, 2, 0]

/-- IP, the initial permutation (R90). -/
def initialPerm (v : Block) : Block := gather tableIP v

/-- IPI = IP^-1, the inverse initial permutation (R91). -/
def inverseInitialPerm (v : Block) : Block := gather tableIPI v

/-- EP, the expansion (R92). -/
def expandHalf (v : Half) : BitVec 8 := gather tableEP v

/-- P4 (R93). -/
def permP4 (v : Half) : Half := gather tableP4 v

end Sys2Proof.Machine
end

