-- ==== Sys2Proof/Config.lean ====
section
/-!
DEFINITION. What one implementation fixes: the type of a pair of S-box tables (a parameter, 93 U8; the machine's own
tables stand in Machine/SBox.lean), the reset draws and CORE_BASE. An `opaque` constant has no body that a proof can
see: a statement about it holds whatever the value is.
-/

namespace Sys2Proof

/-- A 4x4 table of 2-bit values; the row is the outer index (42_sbox_substitution.md R110). -/
abbrev SBoxTable := Vector (Vector (BitVec 2) 4) 4

/-- The two S-boxes, a parameter of the cipher functions (93_implementation_defined.md U8, 92 D26). -/
structure SBoxTables where
  s0 : SBoxTable
  s1 : SBoxTable
deriving DecidableEq, Repr

/-- FREE VALUE: `rv_MK` of the `n`-th reset (70_reset_and_hazards.md R190, 93 U1; log entry 2). -/
opaque Config.drawMk : Nat → Key

/-- FREE VALUE: `rv_K1` of the `n`-th reset (R190, U1; log entry 2). -/
opaque Config.drawK1 : Nat → RoundKey

/-- FREE VALUE: `rv_K2` of the `n`-th reset (R190, U1; log entry 2). -/
opaque Config.drawK2 : Nat → RoundKey

/-- FREE VALUE: `rv_DOUT` of the `n`-th reset (R190, U1, U2; log entries 2 and 3). -/
opaque Config.drawDout : Nat → Block

/-- CORE_BASE, the platform address of the ports: open, and no rule reads it (00_scope.md R8, 20_memory.md R40, 92 D20;
log entry 8). -/
opaque Config.coreBase : Nat

end Sys2Proof
end

