-- ==== Sys2Proof/Machine/SBox.lean ====
section
/-!
DEFINITION. SBoxSubstitution (42_sbox_substitution.md R110 to R113). The functions take the tables as a parameter
(93 U8); `sboxes` holds the tables of R110, which the machine uses.
-/

namespace Sys2Proof.Machine

/-- S0 and S1 of R110. PRESUMED by the spec itself for 24 of the 32 cells (93 G1; log entry 4). -/
def sboxes : SBoxTables where
  s0 := #v[#v[1, 0, 3, 2], #v[3, 2, 1, 0], #v[0, 2, 1, 3], #v[3, 1, 3, 2]]
  s1 := #v[#v[0, 1, 2, 3], #v[2, 0, 1, 3], #v[3, 0, 1, 0], #v[2, 1, 0, 3]]

/-- The number that two bits write, the first the more significant: `2*a + b` (R111). -/
def twoBitIndex (a b : Bool) : Fin 4 := ⟨2 * a.toNat + b.toNat, by cases a <;> cases b <;> decide⟩

/-- `row(h) = 2*seq(h,0) + seq(h,3)` (R111). -/
def sboxRow (h : Half) : Fin 4 := twoBitIndex (seq h 0) (seq h 3)

/-- `col(h) = 2*seq(h,1) + seq(h,2)` (R111). -/
def sboxCol (h : Half) : Fin 4 := twoBitIndex (seq h 1) (seq h 2)

/-- The cell of one table that a half selects (R113). -/
def sboxCell (T : SBoxTable) (h : Half) : BitVec 2 := (T.get (sboxRow h)).get (sboxCol h)

/-- Substitute: S0's value of the left half, then S1's of the right half, each most significant bit first
(R112, R113). -/
def substitute (t : SBoxTables) (x : BitVec 8) : Half :=
  sboxCell t.s0 (leftHalf x) ++ sboxCell t.s1 (rightHalf x)

end Sys2Proof.Machine
end

