-- ==== Sys2Proof/Machine/Feistel.lean ====
section
/-!
DEFINITION. FeistelRound (43_feistel_round.md R131 to R133).
-/

namespace Sys2Proof.Machine

/-- F, the keyed mixing function: `P4(Substitute(EP(r) XOR k))` (R131). -/
def mixHalf (t : SBoxTables) (r : Half) (k : RoundKey) : Half :=
  permP4 (substitute t (xorBits (expandHalf r) k))

/-- fK, one round: the left half takes `F` of the right half, which passes through (R132). -/
def feistelRound (t : SBoxTables) (x : Block) (k : RoundKey) : Block :=
  xorBits (leftHalf x) (mixHalf t (rightHalf x) k) ++ rightHalf x

/-- SW, the half swap (R133). -/
def swapHalves (x : Block) : Block := rightHalf x ++ leftHalf x

end Sys2Proof.Machine
end

