-- ==== Sys2Proof/Machine/KeySchedule.lean ====
section
/-!
DEFINITION. KeySchedule (40_key_schedule.md R70 to R75), the tables as the spec prints them.
-/

namespace Sys2Proof.Machine

/-- T_P10 (R70). -/
def tableP10 : Table 10 10 := #v[2, 4, 1, 6, 3, 9, 0, 8, 7, 5]

/-- T_P8 (R72). -/
def tableP8 : Table 10 8 := #v[5, 2, 6, 3, 7, 4, 9, 8]

/-- P10 (R70). -/
def permP10 (v : Key) : Key := gather tableP10 v

/-- LS: each 5-bit half rotates left by `s`, left half first (R71). -/
def rotateHalves (v : Key) (s : Nat) : Key := rol (leftKeyHalf v) s ++ rol (rightKeyHalf v) s

/-- P8, a selection that drops positions 0 and 1 (R72; 90_conflicts.md C2). -/
def selectP8 (v : Key) : RoundKey := gather tableP8 v

/-- DeriveK1 (R73). -/
def deriveK1 (mk : Key) : RoundKey := selectP8 (rotateHalves (permP10 mk) 1)

/-- DeriveK2: the rotation by 3 is of the P10 output (R74). -/
def deriveK2 (mk : Key) : RoundKey := selectP8 (rotateHalves (permP10 mk) 3)

/-- DeriveRoundKeys (R75). -/
def deriveRoundKeys (mk : Key) : RoundKey × RoundKey := (deriveK1 mk, deriveK2 mk)

end Sys2Proof.Machine
end

