-- ==== Sys2Proof/Syntax.lean ====
section
/-!
DEFINITION. The commands of the core: one constructor per row of spec/opcode_table.json (30_encoding.md R51 to R53).
The operand's width is its type, so every term is a well-formed command. A word of the illegal space is no command
(44_block_cipher.md R146): Decode.lean names it and Machine/Execute.lean raises ILLEGAL for it.
-/

namespace Sys2Proof

/-- A command of the core. -/
inductive Instr where
  /-- LOADKEY, with its 10-bit key: all 1024 values are legal (R52). -/
  | loadkey (key : Key)
  /-- ENC, with its 8-bit plaintext block (R53). -/
  | enc (block : Block)
  /-- DEC, with its 8-bit ciphertext block (R53). -/
  | dec (block : Block)
deriving DecidableEq, Repr

end Sys2Proof
end

