-- ==== Sys2Proof/WellFormed.lean ====
section
/-!
DEFINITION. What is checked about terms that a type does not fix: the operand of an assembly line (30_encoding.md R56)
and the class of a permutation table (41_permutation_network.md R95). A term of `Instr` needs no check: its operand's
width is its type.
-/

namespace Sys2Proof

/-- One assembly line as written: a mnemonic and a numeral of any size (30_encoding.md R56). -/
inductive SourceLine where
  | loadkey (k : Nat)
  | enc (b : Nat)
  | dec (b : Nat)
deriving DecidableEq, Repr

/-- The numeral fits the operand's width; one that does not is an assembly error and is not truncated (R56). -/
def SourceLine.wellFormed : SourceLine → Bool
  | .loadkey k => decide (k < 1024)
  | .enc b => decide (b < 256)
  | .dec b => decide (b < 256)

/-- How often input position `p` stands in the table. -/
def tableUses {n m : Nat} (T : Table n m) (p : Fin n) : Nat := T.toList.count p

/-- R95, class 1: every input position appears exactly once. -/
def isBijectionTable {n m : Nat} (T : Table n m) : Bool :=
  (List.finRange n).all fun p => tableUses T p == 1

/-- R95, class 2: the `dropped` lowest positions never appear and every other position appears exactly once. -/
def isSelectionTable {n m : Nat} (dropped : Nat) (T : Table n m) : Bool :=
  (List.finRange n).all fun p => tableUses T p == if p.val < dropped then 0 else 1

/-- R95, class 3: every input position appears exactly twice. -/
def isExpansionTable {n m : Nat} (T : Table n m) : Bool :=
  (List.finRange n).all fun p => tableUses T p == 2

end Sys2Proof
end

