-- ==== Sys2Proof/Decode.lean ====
section
/-!
DEFINITION. Command decoding and encoding (30_encoding.md R50 to R56). `decode` is total over all 4096 words and names
why a word is illegal; `encode` is R56's.
-/

namespace Sys2Proof

/-- Why a word is in the illegal space (30_encoding.md R55, its two illegal classes). -/
inductive IllegalReason where
  /-- `cmd[11:10]` = 00. -/
  | opZero
  /-- `cmd[11:10]` is 10 or 11 and `cmd[9:8]` is not 00. -/
  | reservedBits
deriving DecidableEq, Repr

/-- What a command word decodes to: LOADKEY, ENC, DEC or ILLEGAL (R54). -/
inductive Decoded where
  | command (i : Instr)
  | illegal (why : IllegalReason)
deriving DecidableEq, Repr

/-- `op`, bits [11:10] (R50). -/
def opField (w : CmdWord) : BitVec 2 := w.extractLsb' 10 2

/-- `arg`, bits [9:0]: LOADKEY's key as it stands, not extended, scaled or shifted (R50, R52). -/
def argField (w : CmdWord) : Key := w.extractLsb' 0 10

/-- Bits [9:8]: reserved in ENC and DEC, which want 00 there (R53). -/
def reservedField (w : CmdWord) : BitVec 2 := w.extractLsb' 8 2

/-- Bits [7:0]: the block of ENC and DEC as it stands (R53). -/
def blockField (w : CmdWord) : Block := w.extractLsb' 0 8

/-- R54's `Decode`. -/
def decode (w : CmdWord) : Decoded :=
  if opField w = 0b01#2 then .command (.loadkey (argField w))
  else if opField w = 0b10#2 ∧ reservedField w = 0b00#2 then .command (.enc (blockField w))
  else if opField w = 0b11#2 ∧ reservedField w = 0b00#2 then .command (.dec (blockField w))
  else if opField w = 0b00#2 then .illegal .opZero
  else .illegal .reservedBits

/-- R56's `Encode`. -/
def encode : Instr → CmdWord
  | .loadkey k => 0b01#2 ++ k
  | .enc b => 0b10#2 ++ 0b00#2 ++ b
  | .dec b => 0b11#2 ++ 0b00#2 ++ b

/-- The `mask` of the instruction's row in spec/opcode_table.json. -/
def tableMask : Instr → CmdWord
  | .loadkey _ => 0xC00#12
  | .enc _ => 0xF00#12
  | .dec _ => 0xF00#12

/-- The `match` of the instruction's row in spec/opcode_table.json. -/
def tableMatch : Instr → CmdWord
  | .loadkey _ => 0x400#12
  | .enc _ => 0x800#12
  | .dec _ => 0xC00#12

/-- The command word that a table row's bits give: a command is one 12-bit word, so its bit 0 is the table's bit 0 and
no byte order is involved (R50, 20_memory.md R43). Bits that the 12-bit port does not have make it no word at all. -/
def tableWord (nbits w : Nat) : Option CmdWord :=
  if w % 2 ^ nbits < 4096 then some (BitVec.ofNat 12 (w % 2 ^ nbits)) else none

/-- The command `decode` reads from a table row's bits; `none` where it is illegal. -/
def decodeTableWord (nbits w : Nat) : Option Instr :=
  match tableWord nbits w with
  | some c =>
    match decode c with
    | .command i => some i
    | .illegal _ => none
  | none => none

end Sys2Proof
end

