-- ==== Sys2Proof/Machine/State.lean ====
section
/-!
DEFINITION. The state of the core (10_state.md R20) with the model's own two fields, the reasons a run can stop, and
the state after reset (70_reset_and_hazards.md R190). The core has no memory, no program counter and no other register.
-/

namespace Sys2Proof.Machine

/-- The input ports in one step (10_state.md R29). -/
structure PortIn where
  /-- `rst`: reset request. -/
  rst : Bool
  /-- `cmd_valid`: a command is presented. -/
  cmdValid : Bool
  /-- `cmd`: the command word, sampled only when `cmdValid`. -/
  cmd : CmdWord
deriving DecidableEq, Repr

/-- The state of the core. -/
structure State where
  /-- MK, the master key (R21). -/
  masterKey : Key
  /-- K1, round key 1 (R22). -/
  k1 : RoundKey
  /-- K2, round key 2 (R23). -/
  k2 : RoundKey
  /-- KV: a key is loaded (R24). -/
  kv : Bool
  /-- DOUT, the data-out register (R25). -/
  dout : Block
  /-- DV: DOUT holds the last command's result (R26). -/
  dv : Bool
  /-- ERR, the last command's outcome (R27). -/
  err : BitVec 2
  /-- The MODEL's own field (log entry 1): what the host will drive on the ports, one entry per step, oldest first. -/
  inputs : List PortIn
  /-- The MODEL's own field (log entry 2): how many resets have drawn their unspecified values. -/
  draws : Nat
deriving DecidableEq, Repr

/-- The outcomes of a command that ERR records (60_exceptions.md R170). -/
inductive ErrCode where
  | ok
  | illegal
  | noKey
deriving DecidableEq, Repr

/-- The key registers, which no port shows (10_state.md R32). -/
inductive KeyRegister where
  | masterKey
  | k1
  | k2
deriving DecidableEq, Repr

/-- Why a run stops with a fault. No step of the core faults (70 R194): each is a fault of a read by the host. -/
inductive Fault where
  /-- Raised by `readDout`: the host uses `dout` while DV = 0 (10_state.md R26, 93 U2). Safe: the port would show some
  value, and the model stops. -/
  | doutNotValid
  /-- Raised by `readStatus`: ERR holds 3, which no rule produces (60 R170, 93 U4). Safe: it stops where the port would
  show a value. -/
  | errCodeUnassigned
  /-- Raised by `readKeyRegister`: the host relies on MK, K1 or K2, which no port shows (10 R32, 70 R196). Safe: there
  is no such read on the hardware. -/
  | keyNotReadable
deriving DecidableEq, Repr

/-- Why a run is refused. -/
inductive Refusal where
  /-- An instruction without a meaning. No arm of `exec` answers it: every row has its meaning. Safe. -/
  | notModelled (mnemonic : String)
  /-- Raised by `runFromPowerOn`: a run that does not begin with a reset is outside the model (70 R195, 93 U3). Safe:
  it stops where the hardware goes on from an unspecified state. -/
  | noResetFirst
deriving DecidableEq, Repr

/-- The state after the first reset (70_reset_and_hazards.md R190, R195): KV, DV and ERR are 0 and MK, K1, K2, DOUT are
reset 0's draws (log entry 2). Nothing is presented on the ports yet (log entry 1). -/
def State.reset : State where
  masterKey := Config.drawMk 0
  k1 := Config.drawK1 0
  k2 := Config.drawK2 0
  kv := false
  dout := Config.drawDout 0
  dv := false
  err := 0b00#2
  inputs := []
  draws := 1

end Sys2Proof.Machine
end

