-- ==== Sys2Proof/Machine/Flags.lean ====
section
/-!
DEFINITION. The error codes and the STATUS byte (10_state.md R27, R28; 60_exceptions.md R170).
-/

namespace Sys2Proof.Machine

/-- The ERR value of each outcome (R170). The value 3 belongs to none. -/
def errCode : ErrCode → BitVec 2
  | .ok => 0b00#2
  | .illegal => 0b01#2
  | .noKey => 0b10#2

/-- STATUS = 0b0000 || ERR || DV || KV, assembled from the flags: no register of its own (R28). -/
def statusOf (s : State) : BitVec 8 :=
  0b0000#4 ++ s.err ++ BitVec.ofBool s.dv ++ BitVec.ofBool s.kv

end Sys2Proof.Machine
end

