-- ==== Sys2Proof/Machine/Ops.lean ====
section
/-!
DEFINITION. The named operations on the state: the ports, reset, raising an error, and the two groups of registers a
command writes. Each is one group of writes that happen together (00_scope.md R13, 20_memory.md R45). The core has no
memory (R40), so there is no memory operation; it has no trap, so raising an error saves nothing and there is no return
beside it (60_exceptions.md R171, R176).
-/

namespace Sys2Proof.Machine

/-- The idle ports: no reset, no command (70_reset_and_hazards.md R194). -/
def idlePort : PortIn := { rst := false, cmdValid := false, cmd := 0#12 }

/-- RESET of a listing: `rst` for one step (30_encoding.md R57). -/
def resetPort : PortIn := { rst := true, cmdValid := false, cmd := 0#12 }

/-- A command word presented with `cmd_valid` = 1 (30_encoding.md R50). -/
def commandPort (w : CmdWord) : PortIn := { rst := false, cmdValid := true, cmd := w }

/-- What the ports carry in this step; a host that has nothing more to drive leaves them idle (log entry 1). -/
def samplePorts (s : State) : PortIn := s.inputs.headD idlePort

/-- The step's port values are consumed: the same word in two steps is two commands (20_memory.md R45). -/
def consumePorts (s : State) : State := { s with inputs := s.inputs.tail }

/-- The host drives `p` in the next step. -/
def presentPort (p : PortIn) (s : State) : State := { s with inputs := p :: s.inputs.tail }

/-- The ports with a table row's bits as the command; bits that fit no command word present nothing. -/
def tableWordPort (nbits w : Nat) : PortIn :=
  match tableWord nbits w with
  | some c => commandPort c
  | none => idlePort

/-- What a step does with its ports. -/
inductive PortAction where
  | reset
  | command (w : CmdWord)
  | idle
deriving DecidableEq, Repr

/-- Reset beats a command, and without `cmd_valid` there is no command (70 R191, R194; 60 R174). -/
def portAction (p : PortIn) : PortAction :=
  if p.rst then .reset else if p.cmdValid then .command p.cmd else .idle

/-- The state after a step with `rst` = 1 (70 R190): flags cleared, and MK, K1, K2, DOUT fresh draws. -/
def resetCore (s : State) : State :=
  { s with
    masterKey := Config.drawMk s.draws
    k1 := Config.drawK1 s.draws
    k2 := Config.drawK2 s.draws
    kv := false
    dout := Config.drawDout s.draws
    dv := false
    err := errCode .ok
    draws := s.draws + 1 }

/-- `raise E`: ERR <- code(E), DV <- 0, and no other write (60_exceptions.md R171). -/
def raiseError (e : ErrCode) (s : State) : State := { s with err := errCode e, dv := false }

/-- LOADKEY's writes: MK, K1, K2, KV, DV and ERR together (44_block_cipher.md R143). -/
def installKey (key : Key) (keys : RoundKey × RoundKey) (s : State) : State :=
  { s with masterKey := key, k1 := keys.1, k2 := keys.2, kv := true, dv := false, err := errCode .ok }

/-- The writes of a successful ENC or DEC: DOUT, DV and ERR together (R144, R145). -/
def deliverBlock (d : Block) (s : State) : State := { s with dout := d, dv := true, err := errCode .ok }

/-- `if KV == 0: raise NO_KEY`, else deliver the result (R144, R145; 60_exceptions.md R173). -/
def deliverIfKeyed (d : Block) (s : State) : Host.Outcome State Fault Refusal :=
  if s.kv then .next (deliverBlock d s) else .next (raiseError .noKey s)

end Sys2Proof.Machine
end

