-- ==== Sys2Proof/Machine/Cipher.lean ====
section
/-!
DEFINITION. BlockCipher: the two block functions (44_block_cipher.md R141, R142) and the meaning of each command
(R143 to R145), with ILLEGAL beside them (60_exceptions.md R172).
-/

namespace Sys2Proof.Machine

/-- EncryptBlock: two rounds, one swap between them and none after (R141). -/
def encryptBlock (t : SBoxTables) (p : Block) (k1 k2 : RoundKey) : Block :=
  inverseInitialPerm (feistelRound t (swapHalves (feistelRound t (initialPerm p) k1)) k2)

/-- DecryptBlock: the same structure with the round keys in reverse order (R142). -/
def decryptBlock (t : SBoxTables) (c : Block) (k1 k2 : RoundKey) : Block :=
  inverseInitialPerm (feistelRound t (swapHalves (feistelRound t (initialPerm c) k2)) k1)

/-- LOADKEY (R143). It has no error: every 10-bit key is valid. -/
def execLoadkey (key : Key) (s : State) : Host.Outcome State Fault Refusal :=
  .next (installKey key (deriveRoundKeys key) s)

/-- ENC (R144). -/
def execEnc (block : Block) (s : State) : Host.Outcome State Fault Refusal :=
  deliverIfKeyed (encryptBlock sboxes block s.k1 s.k2) s

/-- DEC (R145). -/
def execDec (block : Block) (s : State) : Host.Outcome State Fault Refusal :=
  deliverIfKeyed (decryptBlock sboxes block s.k1 s.k2) s

/-- A word of the illegal space: ERR = 1, DV = 0, nothing else changes (60_exceptions.md R172). -/
def execIllegal (s : State) : Host.Outcome State Fault Refusal := .next (raiseError .illegal s)

end Sys2Proof.Machine
end

