-- ==== Sys2Proof/Machine/Execute.lean ====
section
/-!
DEFINITION. Execute (44_block_cipher.md R146) and one step for given port values (70_reset_and_hazards.md R194).
-/

namespace Sys2Proof.Machine

/-- Execute: decode first, so an illegal word reports ILLEGAL even when KV = 0 (R146; 60_exceptions.md R174). -/
def execute (w : CmdWord) (s : State) : Host.Outcome State Fault Refusal :=
  match decode w with
  | .command i => exec i s
  | .illegal _ => execIllegal s

/-- Step(s, rst, cmd_valid, cmd): reset, one command, or idle (R194). -/
def stepPort (p : PortIn) (s : State) : Host.Outcome State Fault Refusal :=
  match portAction p with
  | .reset => .next (resetCore s)
  | .command w => execute w s
  | .idle => .next s

end Sys2Proof.Machine
end

