-- ==== Sys2Proof/Machine/Step.lean ====
section
/-!
DEFINITION. One step of the core: sample the ports, consume what was sampled, act (70_reset_and_hazards.md R194). The
command comes from the `cmd` port, not from storage (20_memory.md R48).
-/

namespace Sys2Proof.Machine

/-- One step. -/
def step (s : State) : Host.Outcome State Fault Refusal := stepPort (samplePorts s) (consumePorts s)

/-- The state with a table row's bits presented as the command of the next step. It stands for the host driving
`cmd_valid` = 1 and `cmd` (log entry 1). -/
def State.withFetchWord (s : State) (nbits w : Nat) : State := presentPort (tableWordPort nbits w) s

end Sys2Proof.Machine
end

