-- ==== Sys2Proof/Machine/Assembler.lean ====
section
/-!
DEFINITION. The assembler of 30_encoding.md R56: a line of text to a mnemonic with a numeral, and that to a command
word. A numeral outside the operand's width is an assembly error and is not truncated. The text form where R56 is
silent is the model's (log entry 6).
-/

namespace Sys2Proof.Machine

/-- The instruction of a well-formed line; `none` is the assembly error (R56). -/
def instrOfLine (l : SourceLine) : Option Instr :=
  if l.wellFormed then
    match l with
    | .loadkey k => some (.loadkey (BitVec.ofNat 10 k))
    | .enc b => some (.enc (BitVec.ofNat 8 b))
    | .dec b => some (.dec (BitVec.ofNat 8 b))
  else none

/-- The command word of a line (R56's Encode); `none` is the assembly error. -/
def assembleLine (l : SourceLine) : Option CmdWord := (instrOfLine l).map encode

/-- A binary digit. -/
def binDigit (c : Char) : Option Nat :=
  if c = '0' then some 0 else if c = '1' then some 1 else none

/-- A hexadecimal digit, in the capitals that R56 writes (log entry 6). -/
def hexDigit (c : Char) : Option Nat :=
  if '0' ≤ c ∧ c ≤ '9' then some (c.toNat - '0'.toNat)
  else if 'A' ≤ c ∧ c ≤ 'F' then some (c.toNat - 'A'.toNat + 10)
  else none

/-- The number that digits of a base write, the first the most significant, onto an accumulator. -/
def digitsValue (base : Nat) (digit : Char → Option Nat) : Nat → List Char → Option Nat
  | acc, [] => some acc
  | acc, c :: cs =>
    match digit c with
    | some d => digitsValue base digit (acc * base + d) cs
    | none => none

/-- A numeral: `0b` and exactly `width` binary digits, or `0x` and hexadecimal digits (R56, log entry 6). -/
def numeralValue (width : Nat) : List Char → Option Nat
  | '0' :: 'b' :: ds => if ds.length = width then digitsValue 2 binDigit 0 ds else none
  | '0' :: 'x' :: d :: ds => digitsValue 16 hexDigit 0 (d :: ds)
  | _ => none

/-- The rest of a line after a leading word, `none` if the line does not begin with it. -/
def afterWord : List Char → List Char → Option (List Char)
  | [], line => some line
  | _ :: _, [] => none
  | w :: ws, c :: cs => if w = c then afterWord ws cs else none

/-- A line of text: the mnemonic, one space, the numeral (R56). -/
def sourceLineOfText (line : List Char) : Option SourceLine :=
  match afterWord "LOADKEY ".toList line, afterWord "ENC ".toList line, afterWord "DEC ".toList line with
  | some n, _, _ => (numeralValue 10 n).map .loadkey
  | _, some n, _ => (numeralValue 8 n).map .enc
  | _, _, some n => (numeralValue 8 n).map .dec
  | _, _, _ => none

/-- The command word of a line of text; `none` is the assembly error. -/
def assembleText (line : List Char) : Option CmdWord :=
  match sourceLineOfText line with
  | some l => assembleLine l
  | none => none

end Sys2Proof.Machine
end

