-- ==== Sys2Proof/Machine/HostPorts.lean ====
section
/-!
DEFINITION. The host's reads of the output ports (10_state.md R26, R28, R29, R32; 70_reset_and_hazards.md R196). A read
answers a value or a fault and no state: it has no side effect (20_memory.md R45).
-/

namespace Sys2Proof.Machine

/-- What the `status` port shows (R28, R29). -/
def statusPort (s : State) : BitVec 8 := statusOf s

/-- What the `dout` port shows, whether or not it is meaningful (R25, R29). -/
def doutPort (s : State) : Block := s.dout

/-- RD STATUS. ERR = 3 is no valid status (93_implementation_defined.md U4). -/
def readStatus (s : State) : Host.Outcome (BitVec 8) Fault Refusal :=
  if s.err = 0b11#2 then .fault .errCodeUnassigned else .next (statusPort s)

/-- RD DOUT: a value that the host uses, so it faults while DV = 0 (R26, 93 U2). -/
def readDout (s : State) : Host.Outcome Block Fault Refusal :=
  if s.dv then .next (doutPort s) else .fault .doutNotValid

/-- MK, K1 and K2 have no read path; relying on one is a fault (R32, 70 R196). -/
def readKeyRegister (_ : KeyRegister) (_ : State) : Host.Outcome (BitVec 10) Fault Refusal :=
  .fault .keyNotReadable

end Sys2Proof.Machine
end

