-- ==== Sys2Proof/Machine/ParseKey.lean ====
section
/-!
DEFINITION. The host's ParseKey (44_block_cipher.md R140, 60_exceptions.md R175): strict, no character is skipped,
trimmed or folded (90_conflicts.md C6). A string is its list of characters (code points, 92 D14).
-/

namespace Sys2Proof.Machine

/-- The result of ParseKey (R140). -/
inductive ParsedKey where
  | key (k : Key)
  | invalidKeyError
deriving DecidableEq, Repr

/-- The bit a key character stands for: only '0' and '1' are accepted (R140). -/
def keyBit (c : Char) : Option Bool :=
  if c = '0' then some false else if c = '1' then some true else none

/-- The bits of a key string, `none` if a character is neither '0' nor '1'. -/
def keyBits : List Char → Option (List Bool)
  | [] => some []
  | c :: cs =>
    match keyBit c, keyBits cs with
    | some b, some bs => some (b :: bs)
    | _, _ => none

/-- ParseKey: exactly 10 characters, character `i` being sequence position `i` (R140, 20_memory.md R42). -/
def parseKey (cs : List Char) : ParsedKey :=
  if cs.length = 10 then
    match keyBits cs with
    | some bs => .key (ofSeq 10 fun i => bs.getD i.val false)
    | none => .invalidKeyError
  else .invalidKeyError

end Sys2Proof.Machine
end

