-- ==== Sys2Proof/Machine/Listing.lean ====
section
/-!
DEFINITION. The host's listings (30_encoding.md R56 to R58) and a run of one: a finite sequence of steps and port reads,
whose result is the values read (70_reset_and_hazards.md R195 to R197). Reads stand between steps and are no steps.
-/

namespace Sys2Proof.Machine

/-- One action of the host. -/
inductive HostAction where
  /-- Drive the ports for one step. -/
  | drive (p : PortIn)
  /-- RD STATUS. -/
  | readStatus
  /-- RD DOUT, the value being used. -/
  | readDout
  /-- The RD DOUT of ENCB and DECB: the host uses the value only if DV = 1 (30_encoding.md R58). -/
  | readDoutIfValid
  /-- The host relies on a key register (70 R196). -/
  | readKey (r : KeyRegister)
  /-- The host reports InvalidKeyError: no command is issued (R58, 60_exceptions.md R175). -/
  | reportInvalidKey
deriving DecidableEq, Repr

/-- What the host reads or reports. -/
inductive Observation where
  | status (v : BitVec 8)
  | dout (v : Block)
  | doutNotUsed
  | invalidKeyError
deriving DecidableEq, Repr

/-- One line of a listing. -/
inductive ListingLine where
  | command (i : Instr)
  | word (w : CmdWord)
  | reset
  | idle
  | rdStatus
  | rdDout
  | setkey (s : List Char)
  | encb (b : Block)
  | decb (b : Block)
  | nop
deriving DecidableEq, Repr

/-- The actions of a line: commands, host actions (R57) and the pseudo-instructions' expansions (R58). -/
def lineActions : ListingLine → List HostAction
  | .command i => [.drive (commandPort (encode i))]
  | .word w => [.drive (commandPort w)]
  | .reset => [.drive resetPort]
  | .idle => [.drive idlePort]
  | .rdStatus => [.readStatus]
  | .rdDout => [.readDout]
  | .setkey s =>
    match parseKey s with
    | .key k => [.drive (commandPort (encode (.loadkey k)))]
    | .invalidKeyError => [.reportInvalidKey]
  | .encb b => [.drive (commandPort (encode (.enc b))), .readStatus, .readDoutIfValid]
  | .decb b => [.drive (commandPort (encode (.dec b))), .readStatus, .readDoutIfValid]
  | .nop => [.drive idlePort]

/-- The characters between the two quotes of SETKEY's operand (R58); character 34 is the double quote. -/
def quotedText (cs : List Char) : Option (List Char) :=
  match cs with
  | [] => none
  | c :: rest =>
    if c = Char.ofNat 34 ∧ rest.getLast? = some (Char.ofNat 34) then some rest.dropLast else none

/-- A line of text as a listing line: R56's assembly lines, R57's host actions, R58's pseudo-instructions. `none` is an
assembly error (log entry 6). -/
def listingLineOfText (line : List Char) : Option ListingLine :=
  if line = "RESET".toList then some .reset
  else if line = "IDLE".toList then some .idle
  else if line = "NOP".toList then some .nop
  else if line = "RD STATUS".toList then some .rdStatus
  else if line = "RD DOUT".toList then some .rdDout
  else
    match afterWord "SETKEY ".toList line, afterWord "ENCB ".toList line, afterWord "DECB ".toList line with
    | some q, _, _ => (quotedText q).map .setkey
    | _, some n, _ =>
      match numeralValue 8 n with
      | some b => if b < 256 then some (.encb (BitVec.ofNat 8 b)) else none
      | none => none
    | _, _, some n =>
      match numeralValue 8 n with
      | some b => if b < 256 then some (.decb (BitVec.ofNat 8 b)) else none
      | none => none
    | _, _, _ =>
      match sourceLineOfText line with
      | some l => (instrOfLine l).map .command
      | none => none

/-- One action: the state after it and what the host observed by it. -/
def hostAct (a : HostAction) (s : State) : Host.Outcome (State × List Observation) Fault Refusal :=
  match a with
  | .drive p =>
    match step (presentPort p s) with
    | .next t => .next (t, [])
    | .fault f => .fault f
    | .refused r => .refused r
  | .readStatus =>
    match readStatus s with
    | .next v => .next (s, [.status v])
    | .fault f => .fault f
    | .refused r => .refused r
  | .readDout =>
    match readDout s with
    | .next v => .next (s, [.dout v])
    | .fault f => .fault f
    | .refused r => .refused r
  | .readDoutIfValid => .next (s, [if s.dv then .dout (doutPort s) else .doutNotUsed])
  | .readKey r =>
    match readKeyRegister r s with
    | .next _ => .next (s, [])
    | .fault f => .fault f
    | .refused q => .refused q
  | .reportInvalidKey => .next (s, [.invalidKeyError])

/-- A run of actions from a state: its end state and the observations in order (70 R197). -/
def runActions : List HostAction → State → Host.Outcome (State × List Observation) Fault Refusal
  | [], s => .next (s, [])
  | a :: as, s =>
    match hostAct a s with
    | .next (s1, o) =>
      match runActions as s1 with
      | .next (t, os) => .next (t, o ++ os)
      | .fault f => .fault f
      | .refused r => .refused r
    | .fault f => .fault f
    | .refused r => .refused r

/-- A run of a listing from power-on: every register is unspecified until the first reset, so a run that does not begin
with one is refused (70 R195, 93 U3). The first reset gives `State.reset`. -/
def runFromPowerOn : List HostAction → Host.Outcome (State × List Observation) Fault Refusal
  | .drive p :: rest => if p.rst then runActions rest State.reset else .refused .noResetFirst
  | _ => .refused .noResetFirst

end Sys2Proof.Machine
end

