-- ==== Sys2Proof/Safety.lean ====
section
/-!
DEFINITION. What the statements count as a good state (10_state.md R24 to R27, R31) and as two states the host cannot
tell apart (R29, R32; 70_reset_and_hazards.md R192).
-/

namespace Sys2Proof.Machine

/-- With a key loaded, K1 and K2 are the round keys of MK (10_state.md R31, 20_memory.md R49). -/
abbrev State.CacheInv (s : State) : Prop := s.kv = true → (s.k1, s.k2) = deriveRoundKeys s.masterKey

/-- A valid result means the last command was a successful ENC or DEC, which needs a key and reports OK (R26, R27). -/
abbrev State.ResultInv (s : State) : Prop := s.dv = true → s.kv = true ∧ s.err = errCode .ok

/-- NO_KEY is reported only while no key is loaded (60_exceptions.md R173, R174). -/
abbrev State.NoKeyInv (s : State) : Prop := s.err = errCode .noKey → s.kv = false

/-- ERR is never 3 (10_state.md R27, 60_exceptions.md R170). -/
abbrev State.ErrInv (s : State) : Prop := s.err ≠ 0b11#2

/-- The invariant of every state reachable from reset. -/
abbrev State.Inv (s : State) : Prop := s.CacheInv ∧ s.ResultInv ∧ s.NoKeyInv ∧ s.ErrInv

/-- Two states that no host sees a difference between: the flags and the coming inputs agree, the round keys agree
once a key is loaded, and DOUT agrees while it is valid. MK, the draws' count, and everything the flags hide are free. -/
abbrev State.LooksLike (s t : State) : Prop :=
  s.kv = t.kv ∧ s.dv = t.dv ∧ s.err = t.err ∧ s.inputs = t.inputs ∧
    (s.kv = true → s.k1 = t.k1 ∧ s.k2 = t.k2) ∧ (s.dv = true → s.dout = t.dout)

end Sys2Proof.Machine
end

