-- ==== Sys2Proof/Certificates/Slice0/Obligations.lean ====
section
/-!
DEFINITION. The statements for the provers. Each docstring names the rule of spec/ that the statement formalises. The
core has no memory (20_memory.md R40), so no frame speaks of one; `inputs` and `draws` are the model's own fields (log
entries 1 and 2) and are named where a step changes them.
-/

open Sys2Proof Sys2Proof.Machine

/-! ## The step -/

/-- 44 R146, 70 R194: a step with `rst` = 0 and `cmd_valid` = 1 whose word decodes to a command is that command's
`exec`, at the state whose sampled port values are consumed (log entry 1). -/
def Obligations.StepRunsTheDecodedCommand : Prop :=
  ∀ (s : State) (i : Instr), (samplePorts s).rst = false → (samplePorts s).cmdValid = true →
    decode (samplePorts s).cmd = .command i →
    Machine.step s = exec i { s with inputs := s.inputs.tail }

/-- Log entry 1 (the model's own convention): a table row's bits presented as the next command are run by the next
step, and nothing else of the state changes by presenting them. -/
def Obligations.PresentedWordIsTheNextCommand : Prop :=
  ∀ (s : State) (nbits w : Nat) (i : Instr), decodeTableWord nbits w = some i →
    Machine.step (s.withFetchWord nbits w) = exec i { s with inputs := s.inputs.tail }

/-- 70 R194 (Progress), 60 R171, 70 R197: every state has a next state; the core never faults, refuses or halts. -/
def Obligations.EveryStepHasASuccessor : Prop :=
  ∀ s : State, ∃ t : State, Machine.step s = .next t

/-- 60 R184, 70 R194: any number of idle steps leaves every register as it is, whatever stands on `cmd`. -/
def Obligations.IdleStepsChangeNothing : Prop :=
  ∀ (ps rest : List PortIn) (s : State), (∀ p ∈ ps, p.rst = false ∧ p.cmdValid = false) →
    s.inputs = ps ++ rest →
    Sys2Proof.core.run ps.length s = .next { s with inputs := rest }

/-- 70 R190: after a step with `rst` = 1, and at `State.reset`, KV = 0, DV = 0, ERR = 0 and STATUS = 0x00. MK, K1, K2
and DOUT are unspecified, so nothing is said of them. -/
def Obligations.ResetClearsTheFlags : Prop :=
  (∀ s : State, (samplePorts s).rst = true →
    ∃ t : State, Machine.step s = .next t ∧ t.kv = false ∧ t.dv = false ∧ t.err = 0b00#2 ∧ statusOf t = 0x00#8 ∧
      t.inputs = s.inputs.tail) ∧
  State.reset.kv = false ∧ State.reset.dv = false ∧ State.reset.err = 0b00#2 ∧ statusOf State.reset = 0x00#8

/-- 70 R191: with `rst` = 1 the command word and `cmd_valid` have no influence on what R190 fixes (the flags, STATUS, and
the inputs still to come), at any step, and a loaded key is lost: an ENC or DEC in the next step reports NO_KEY. MK, K1, K2
and DOUT are draws (R190), so the two resets are compared as the host sees them and nothing is said of those four. -/
def Obligations.ResetBeatsACommand : Prop :=
  ∀ (s : State) (p q : PortIn), p.rst = true → q.rst = true →
    ∃ t u : State, Machine.step (presentPort p s) = .next t ∧ Machine.step (presentPort q s) = .next u ∧ t.LooksLike u ∧
      t.kv = false ∧ t.dv = false ∧ t.err = 0b00#2 ∧ statusOf t = 0x00#8 ∧ t.inputs = s.inputs.tail ∧
      ∀ b : Block, Machine.step (presentPort (commandPort (encode (.enc b))) t) =
          .next { t with inputs := t.inputs.tail, err := 0b10#2, dv := false } ∧
        Machine.step (presentPort (commandPort (encode (.dec b))) t) =
          .next { t with inputs := t.inputs.tail, err := 0b10#2, dv := false }

/-- 60 R172: which words are illegal, and that such a word leaves every register but ERR and DV as it was. -/
def Obligations.IllegalWordsReportIllegal : Prop :=
  (∀ w : CmdWord, (∃ why, decode w = .illegal why) ↔
    (w.extractLsb' 10 2 = 0b00#2 ∨
      ((w.extractLsb' 10 2 = 0b10#2 ∨ w.extractLsb' 10 2 = 0b11#2) ∧ w.extractLsb' 8 2 ≠ 0b00#2))) ∧
  (∀ (s : State) (why : IllegalReason), (samplePorts s).rst = false → (samplePorts s).cmdValid = true →
    decode (samplePorts s).cmd = .illegal why →
    Machine.step s = .next { s with inputs := s.inputs.tail, err := 0b01#2, dv := false })

/-! ## The commands -/

/-- 44 R143: LOADKEY's whole effect in every state, its encoding and its example. Every field not named is unchanged,
DOUT among them. -/
def Obligations.LoadkeyInstallsTheKey : Prop :=
  (∀ (k : Key) (s : State), exec (.loadkey k) s =
    .next { s with
      masterKey := k, k1 := (deriveRoundKeys k).1, k2 := (deriveRoundKeys k).2, kv := true, dv := false,
      err := 0b00#2 }) ∧
  (∀ (k : Key) (w : CmdWord), w.extractLsb' 10 2 = 0b01#2 → w.extractLsb' 0 10 = k → decode w = .command (.loadkey k)) ∧
  (∀ s : State, exec (.loadkey 0b1010000010#10) s =
    .next { s with masterKey := 0x282#10, k1 := 0xA4#8, k2 := 0x43#8, kv := true, dv := false, err := 0b00#2 })

/-- 44 R144: ENC with a key and without one, its encoding, that the same command twice gives the same DOUT, and its
example (which reads confirmed S-box cells only: S0[1][3], S1[2][3], S0[2][0], S1[1][3]). -/
def Obligations.EncWritesTheCiphertext : Prop :=
  (∀ (b : Block) (s : State), s.kv = true → exec (.enc b) s =
    .next { s with dout := encryptBlock sboxes b s.k1 s.k2, dv := true, err := 0b00#2 }) ∧
  (∀ (b : Block) (s : State), s.kv = false → exec (.enc b) s = .next { s with dv := false, err := 0b10#2 }) ∧
  (∀ (b : Block) (w : CmdWord), decode w = .command (.enc b) ↔
    w.extractLsb' 10 2 = 0b10#2 ∧ w.extractLsb' 8 2 = 0b00#2 ∧ w.extractLsb' 0 8 = b) ∧
  (∀ (b : Block) (s t : State), s.kv = true → exec (.enc b) s = .next t → exec (.enc b) t = .next t) ∧
  (∀ s t : State, exec (.loadkey 0b0111010001#10) s = .next t →
    exec (.enc 0xD5#8) t = .next { t with dout := 0x73#8, dv := true, err := 0b00#2 })

/-- 44 R145: DEC with a key and without one, its encoding, that DEC of ENC's DOUT returns the block, that DEC is ENC
under equal round keys, and its example (confirmed S-box cells only). -/
def Obligations.DecWritesThePlaintext : Prop :=
  (∀ (b : Block) (s : State), s.kv = true → exec (.dec b) s =
    .next { s with dout := decryptBlock sboxes b s.k1 s.k2, dv := true, err := 0b00#2 }) ∧
  (∀ (b : Block) (s : State), s.kv = false → exec (.dec b) s = .next { s with dv := false, err := 0b10#2 }) ∧
  (∀ (b : Block) (w : CmdWord), decode w = .command (.dec b) ↔
    w.extractLsb' 10 2 = 0b11#2 ∧ w.extractLsb' 8 2 = 0b00#2 ∧ w.extractLsb' 0 8 = b) ∧
  (∀ (b : Block) (s t : State), s.kv = true → exec (.enc b) s = .next t →
    exec (.dec t.dout) t = .next { t with dout := b, dv := true, err := 0b00#2 }) ∧
  (∀ (b : Block) (s : State), s.k1 = s.k2 → exec (.dec b) s = exec (.enc b) s) ∧
  (∀ s t : State, exec (.loadkey 0b0111010001#10) s = .next t →
    exec (.dec 0x73#8) t = .next { t with dout := 0xD5#8, dv := true, err := 0b00#2 })

/-- 60 R173: ENC and DEC while KV = 0 set ERR = 2 and DV = 0 and leave everything else, DOUT among it, unchanged. -/
def Obligations.NoKeyWithoutAKey : Prop :=
  ∀ (b : Block) (s : State), s.kv = false →
    exec (.enc b) s = .next { s with err := 0b10#2, dv := false } ∧
    exec (.dec b) s = .next { s with err := 0b10#2, dv := false }

/-- Frame of LOADKEY (44 R143, 10 R25): only MK, K1, K2, KV, DV and ERR may change. -/
def Obligations.LoadkeyFrame : Prop :=
  ∀ (k : Key) (s t : State), exec (.loadkey k) s = .next t →
    t.dout = s.dout ∧ t.inputs = s.inputs ∧ t.draws = s.draws

/-- Frame of ENC and DEC (44 R144, R145; 10 R33): only DOUT, DV and ERR may change, and without a key not DOUT. -/
def Obligations.EncDecFrame : Prop :=
  ∀ (b : Block) (s t : State), exec (.enc b) s = .next t ∨ exec (.dec b) s = .next t →
    t.masterKey = s.masterKey ∧ t.k1 = s.k1 ∧ t.k2 = s.k2 ∧ t.kv = s.kv ∧ t.inputs = s.inputs ∧ t.draws = s.draws ∧
      (s.kv = false → t.dout = s.dout)

/-- 44 R143 to R145, 20 R46, 70 R198: an ENC or DEC in the step right after a LOADKEY uses the new round keys, whatever
key was held before. -/
def Obligations.NextStepSeesTheNewKey : Prop :=
  ∀ (k : Key) (b : Block) (s : State) (rest : List PortIn),
    (s.inputs = commandPort (encode (.loadkey k)) :: commandPort (encode (.enc b)) :: rest →
      ∃ t : State, Sys2Proof.core.run 2 s = .next t ∧ t.dv = true ∧ t.err = 0b00#2 ∧ t.masterKey = k ∧ t.inputs = rest ∧
        t.dout = encryptBlock sboxes b (deriveK1 k) (deriveK2 k)) ∧
    (s.inputs = commandPort (encode (.loadkey k)) :: commandPort (encode (.dec b)) :: rest →
      ∃ t : State, Sys2Proof.core.run 2 s = .next t ∧ t.dv = true ∧ t.err = 0b00#2 ∧ t.masterKey = k ∧ t.inputs = rest ∧
        t.dout = decryptBlock sboxes b (deriveK1 k) (deriveK2 k))

/-- 40 R76, 10 R31: in a state that keeps the cache invariant, ENC and DEC answer what the variant that recomputes the
round keys from MK on every block would answer. -/
def Obligations.CachedKeysEqualRecomputedKeys : Prop :=
  ∀ (b : Block) (s : State), s.CacheInv → s.kv = true →
    exec (.enc b) s = .next { s with
      dout := encryptBlock sboxes b (deriveK1 s.masterKey) (deriveK2 s.masterKey), dv := true, err := 0b00#2 } ∧
    exec (.dec b) s = .next { s with
      dout := decryptBlock sboxes b (deriveK1 s.masterKey) (deriveK2 s.masterKey), dv := true, err := 0b00#2 }

/-! ## What each register does in any step -/

/-- 10 R24: KV is set by LOADKEY, cleared by reset, and changed by nothing else. -/
def Obligations.KeyValidAfterAnyStep : Prop :=
  ∀ s t : State, Machine.step s = .next t →
    ((samplePorts s).rst = true → t.kv = false) ∧
    ((samplePorts s).rst = false → (samplePorts s).cmdValid = true →
      ((∃ k, decode (samplePorts s).cmd = .command (.loadkey k)) → t.kv = true) ∧
      ((∀ k, decode (samplePorts s).cmd ≠ .command (.loadkey k)) → t.kv = s.kv)) ∧
    ((samplePorts s).rst = false → (samplePorts s).cmdValid = false → t.kv = s.kv)

/-- 10 R26: after a command DV = 1 exactly when it was a successful ENC or DEC (a command was an ENC or DEC with KV = 1),
DOUT then holding that command's result; reset clears DV and an idle step leaves it; a read of `dout` while DV = 0 is a
fault and STATUS[1] shows DV. -/
def Obligations.DataValidAfterAnyStep : Prop :=
  (∀ s t : State, Machine.step s = .next t →
    ((samplePorts s).rst = true → t.dv = false) ∧
    ((samplePorts s).rst = false → (samplePorts s).cmdValid = true →
      (t.dv = true ↔ s.kv = true ∧ ∃ b, (decode (samplePorts s).cmd = .command (.enc b) ∧
          t.dout = encryptBlock sboxes b s.k1 s.k2) ∨
        (decode (samplePorts s).cmd = .command (.dec b) ∧ t.dout = decryptBlock sboxes b s.k1 s.k2))) ∧
    ((samplePorts s).rst = false → (samplePorts s).cmdValid = false → t.dv = s.dv)) ∧
  (∀ s : State, (s.dv = false → readDout s = .fault .doutNotValid) ∧ (s.dv = true → readDout s = .next s.dout) ∧
    (statusOf s).getLsbD 1 = s.dv) ∧
  State.reset.dv = false

/-- 10 R27, 60 R174: ERR after a step is 0 on reset, else the command's own outcome (ILLEGAL before NO_KEY), else
unchanged; an earlier error never stays after a command; 3 is never produced; STATUS[3:2] shows ERR; it is 0 at reset. -/
def Obligations.ErrorFieldAfterAnyStep : Prop :=
  (∀ s t : State, Machine.step s = .next t →
    (t.err =
      if (samplePorts s).rst then 0b00#2
      else if (samplePorts s).cmdValid then
        match decode (samplePorts s).cmd with
        | .illegal _ => 0b01#2
        | .command (.loadkey _) => 0b00#2
        | .command (.enc _) => if s.kv then 0b00#2 else 0b10#2
        | .command (.dec _) => if s.kv then 0b00#2 else 0b10#2
      else s.err) ∧
    (t.err = 0b11#2 → s.err = 0b11#2 ∧ (samplePorts s).rst = false ∧ (samplePorts s).cmdValid = false)) ∧
  (∀ s : State, (statusOf s).extractLsb' 2 2 = s.err) ∧ State.reset.err = 0b00#2

/-- 10 R25: in a step with `rst` = 0, DOUT changes only by an ENC or DEC with KV = 1. What DOUT is after a reset is
unspecified (70 R190, log entry 3), so nothing is said of it. -/
def Obligations.DataOutChangesOnlyByEncDec : Prop :=
  ∀ s t : State, Machine.step s = .next t → (samplePorts s).rst = false → t.dout ≠ s.dout →
    (samplePorts s).cmdValid = true ∧ s.kv = true ∧
      ∃ b, decode (samplePorts s).cmd = .command (.enc b) ∨ decode (samplePorts s).cmd = .command (.dec b)

/-- 10 R21 to R23: in a step with `rst` = 0, MK, K1 and K2 change only by a LOADKEY, which writes its key and that key's
round keys. After a reset they are unspecified. -/
def Obligations.KeyRegistersChangeOnlyByLoadkey : Prop :=
  ∀ s t : State, Machine.step s = .next t → (samplePorts s).rst = false →
    (t.masterKey = s.masterKey ∧ t.k1 = s.k1 ∧ t.k2 = s.k2) ∨
    ∃ k, (samplePorts s).cmdValid = true ∧ decode (samplePorts s).cmd = .command (.loadkey k) ∧
      t.masterKey = k ∧ t.k1 = deriveK1 k ∧ t.k2 = deriveK2 k

/-! ## Invariants and what the host can see -/

/-- 10 R31, 20 R49 (the cache), R26, R27, 60 R170, R173: every step keeps the invariant, from every state that has it. -/
def Obligations.EveryStepKeepsTheInvariant : Prop :=
  ∀ s t : State, s.Inv → Machine.step s = .next t → t.Inv

/-- The invariant holds at reset (70 R190), whatever the reset draws are. -/
def Obligations.ResetHasTheInvariant : Prop := State.reset.Inv

/-- 70 R192, 10 R32: two states that look alike to the host look alike after every step; what a step does to KV, DV, ERR
and a valid DOUT depends on nothing that the host cannot see. -/
def Obligations.StepsKeepStatesLookingAlike : Prop :=
  (∀ s t s1 t1 : State, s.LooksLike t → Machine.step s = .next s1 → Machine.step t = .next t1 → s1.LooksLike t1) ∧
  (∀ s t s1 t1 : State, s.inputs = t.inputs → (samplePorts s).rst = true →
    Machine.step s = .next s1 → Machine.step t = .next t1 → s1.LooksLike t1)

/-- 70 R192, R197, 10 R32: from two states that look alike, every run of host actions makes the same observations and ends
in states that look alike, or stops for the same reason. So the reset draws of MK, K1, K2 and DOUT are never observed. -/
def Obligations.RunsObserveNothingHidden : Prop :=
  ∀ (acts : List HostAction) (s t : State), s.LooksLike t →
    match runActions acts s, runActions acts t with
    | .next (s1, o1), .next (t1, o2) => o1 = o2 ∧ s1.LooksLike t1
    | .fault f1, .fault f2 => f1 = f2
    | .refused r1, .refused r2 => r1 = r2
    | _, _ => False

/-- 44 R148, 00 R6: with a key loaded, a stream of ENCB (or DECB) lines reads back the blockwise image of its input, each
result depending on its own block alone, and the keys are as before. -/
def Obligations.BlocksAreIndependent : Prop :=
  ∀ (bs : List Block) (s : State), s.kv = true →
    (∃ t, runActions (bs.flatMap fun b => lineActions (.encb b)) s =
        .next (t, bs.flatMap fun b => [.status 0x03#8, .dout (encryptBlock sboxes b s.k1 s.k2)]) ∧
      t.kv = true ∧ t.k1 = s.k1 ∧ t.k2 = s.k2) ∧
    (∃ t, runActions (bs.flatMap fun b => lineActions (.decb b)) s =
        .next (t, bs.flatMap fun b => [.status 0x03#8, .dout (decryptBlock sboxes b s.k1 s.k2)]) ∧
      t.kv = true ∧ t.k1 = s.k1 ∧ t.k2 = s.k2)

/-- 10 R28: STATUS bit by bit; a host's read of it answers exactly this byte while ERR is a legal value. -/
def Obligations.StatusByteLayout : Prop :=
  ∀ s : State, (statusOf s).getLsbD 0 = s.kv ∧ (statusOf s).getLsbD 1 = s.dv ∧ (statusOf s).extractLsb' 2 2 = s.err ∧
    (statusOf s).extractLsb' 4 4 = 0b0000#4 ∧ (s.err ≠ 0b11#2 → readStatus s = .next (statusOf s))

/-- 10 R32, 70 R196, 93 U4: reading a key register faults in every state, and so does reading STATUS with ERR = 3. -/
def Obligations.ForbiddenReadsFault : Prop :=
  ∀ s : State, (∀ r : KeyRegister, readKeyRegister r s = .fault .keyNotReadable) ∧
    (s.err = 0b11#2 → readStatus s = .fault .errCodeUnassigned)

/-- 70 R193, R195: a run that begins with anything but a reset is refused, and one that resets, sets a valid key and
encrypts a block reads DV = KV = 1 and that block's ciphertext. -/
def Obligations.BootThenEncrypt : Prop :=
  (∀ (acts : List HostAction), (∀ p rest, acts = .drive p :: rest → p.rst = false) →
    runFromPowerOn acts = .refused .noResetFirst) ∧
  (∀ (cs : List Char) (k : Key) (b : Block), parseKey cs = .key k →
    ∃ t, runFromPowerOn (lineActions .reset ++ lineActions (.setkey cs) ++ lineActions (.encb b)) =
      .next (t, [.status 0x03#8, .dout (encryptBlock sboxes b (deriveK1 k) (deriveK2 k))]))

/-! ## Encoding -/

/-- 30 R54, R56: decoding an encoded command gives it back, with every operand at every value, and no other word decodes
to it. -/
def Obligations.DecodeInvertsEncode : Prop :=
  ∀ (w : CmdWord) (i : Instr), decode w = .command i ↔ w = encode i

/-- 30 R54: the four cases of Decode over every word, and that no word falls outside them. -/
def Obligations.DecodeIsTotal : Prop :=
  ∀ w : CmdWord,
    (w.extractLsb' 10 2 = 0b01#2 → decode w = .command (.loadkey (w.extractLsb' 0 10))) ∧
    (w.extractLsb' 10 2 = 0b10#2 → w.extractLsb' 8 2 = 0b00#2 → decode w = .command (.enc (w.extractLsb' 0 8))) ∧
    (w.extractLsb' 10 2 = 0b11#2 → w.extractLsb' 8 2 = 0b00#2 → decode w = .command (.dec (w.extractLsb' 0 8))) ∧
    (w.extractLsb' 10 2 ≠ 0b01#2 → ¬((w.extractLsb' 10 2 = 0b10#2 ∨ w.extractLsb' 10 2 = 0b11#2) ∧
      w.extractLsb' 8 2 = 0b00#2) → ∃ why, decode w = .illegal why)

/-- 30 R55: how many of the 4096 words fall into each class. -/
def Obligations.EncodingSpaceCounts : Prop :=
  ((List.range 4096).countP fun n => match decode (BitVec.ofNat 12 n) with
    | .command (.loadkey _) => true | _ => false) = 1024 ∧
  ((List.range 4096).countP fun n => match decode (BitVec.ofNat 12 n) with
    | .command (.enc _) => true | _ => false) = 256 ∧
  ((List.range 4096).countP fun n => match decode (BitVec.ofNat 12 n) with
    | .command (.dec _) => true | _ => false) = 256 ∧
  ((List.range 4096).countP fun n => decide (decode (BitVec.ofNat 12 n) = .illegal .opZero)) = 1024 ∧
  ((List.range 4096).countP fun n => decide (decode (BitVec.ofNat 12 n) = .illegal .reservedBits)) = 1536

/-- Words written out from 30 R55 and 95 V-ENC decode to what they stand for (a sanity statement). -/
def Obligations.WrittenOutWordsDecode : Prop :=
  decode 0b011010000010#12 = .command (.loadkey 0x282#10) ∧ decode 0b100011010101#12 = .command (.enc 0xD5#8) ∧
  decode 0b110001110011#12 = .command (.dec 0x73#8) ∧ decode 0b000000000000#12 = .illegal .opZero ∧
  decode 0b100100000000#12 = .illegal .reservedBits ∧ decode 0b111111111111#12 = .illegal .reservedBits

/-- 30 R56: Encode, and that a numeral outside the operand's width is an assembly error and is not truncated, with R56's
three examples as text. -/
def Obligations.AssemblerRejectsWideNumerals : Prop :=
  (∀ k : Key, encode (.loadkey k) = 0b01#2 ++ k) ∧
  (∀ b : Block, encode (.enc b) = 0b10#2 ++ 0b00#2 ++ b) ∧
  (∀ b : Block, encode (.dec b) = 0b11#2 ++ 0b00#2 ++ b) ∧
  (∀ n : Nat, (assembleLine (.loadkey n) = if n < 1024 then some (0b01#2 ++ BitVec.ofNat 10 n) else none) ∧
    (assembleLine (.enc n) = if n < 256 then some (0b10#2 ++ 0b00#2 ++ BitVec.ofNat 8 n) else none) ∧
    (assembleLine (.dec n) = if n < 256 then some (0b11#2 ++ 0b00#2 ++ BitVec.ofNat 8 n) else none)) ∧
  assembleText "LOADKEY 0b1010000010".toList = some 0x682#12 ∧ assembleText "ENC 0xD5".toList = some 0x8D5#12 ∧
  assembleText "DEC 0x73".toList = some 0xC73#12

/-! ## Bit order, rotations, key schedule -/

/-- 20 R41: the block sequence of a byte is most significant bit first, shifting the sequence in gives the byte back, and
the operand of ENC and DEC is the word's low byte in that order. -/
def Obligations.ByteOrderIsMsbFirst : Prop :=
  (∀ (b : BitVec 8) (i : Fin 8), (byteSeq b)[i.val]? = some (b.getLsbD (7 - i.val))) ∧
  (∀ b : BitVec 8, shiftIn (byteSeq b) = b) ∧
  (∀ (w : CmdWord) (i : Fin 8), seq (blockField w) i = w.getLsbD (7 - i.val))

/-- 00 R12: `rol` in sequence positions and in register bits, for every width and every offset below it. -/
def Obligations.RotationMovesSequencePositions : Prop :=
  ∀ (w : Nat) (v : BitVec w) (s : Nat) (h : s < w),
    (∀ i : Fin w, seq (rol v s) i = seq v ⟨(i.val + s) % w, Nat.mod_lt _ (Nat.zero_lt_of_lt h)⟩) ∧
    (rol v s).toNat = ((v.toNat <<< s) ||| (v.toNat >>> (w - s))) % 2 ^ w

/-- 40 R70, R72: P10 and P8 in register bits, what P10 keeps, its inverse table, what P8 drops, and their examples. -/
def Obligations.KeyPermutationsWiring : Prop :=
  (∀ v : Key, List.ofFn (seq (permP10 v)) = [v.getLsbD 7, v.getLsbD 5, v.getLsbD 8, v.getLsbD 3, v.getLsbD 6,
    v.getLsbD 0, v.getLsbD 9, v.getLsbD 1, v.getLsbD 2, v.getLsbD 4]) ∧
  isBijectionTable tableP10 = true ∧ permP10 0x000#10 = 0x000#10 ∧ permP10 0x3FF#10 = 0x3FF#10 ∧
  (∀ v : Key, (List.ofFn (seq (permP10 v))).count true = (List.ofFn (seq v)).count true) ∧
  (∀ v : Key, gather (#v[6, 2, 0, 4, 1, 9, 3, 8, 7, 5] : Table 10 10) (permP10 v) = v) ∧
  permP10 0b1001001100#10 = 0b0001101010#10 ∧
  (∀ v : Key, List.ofFn (seq (selectP8 v)) = [v.getLsbD 4, v.getLsbD 7, v.getLsbD 3, v.getLsbD 6, v.getLsbD 2,
    v.getLsbD 5, v.getLsbD 0, v.getLsbD 1]) ∧
  isSelectionTable 2 tableP8 = true ∧ selectP8 0x3FF#10 = 0xFF#8 ∧ selectP8 0x000#10 = 0x00#8 ∧
  selectP8 0b1100000000#10 = 0x00#8 ∧ selectP8 0b1001001100#10 = 0b00111000#8

/-- 40 R71: LS rotates each half by itself, and 3 is 1 and then 2. -/
def Obligations.KeyHalvesRotateIndependently : Prop :=
  (∀ (v : Key) (s : Nat), s < 5 → ∀ i : Fin 5,
    (rotateHalves v s).getLsbD (9 - i.val) = v.getLsbD (9 - (i.val + s) % 5) ∧
    (rotateHalves v s).getLsbD (4 - i.val) = v.getLsbD (4 - (i.val + s) % 5)) ∧
  (∀ v : Key, rotateHalves v 3 = rotateHalves (rotateHalves v 1) 2 ∧ rotateHalves v 5 = v) ∧
  (∀ s : Nat, s < 5 → rotateHalves 0x000#10 s = 0x000#10 ∧ rotateHalves 0x3FF#10 s = 0x3FF#10) ∧
  rotateHalves 0b1000001100#10 1 = 0b0000111000#10 ∧ rotateHalves 0b1000001100#10 3 = 0b0010000011#10

/-- 40 R73, R74: both round keys in register bits of the master key, what each does not depend on, and the example. -/
def Obligations.RoundKeysClosedForms : Prop :=
  (∀ mk : Key, List.ofFn (seq (deriveK1 mk)) = [mk.getLsbD 9, mk.getLsbD 3, mk.getLsbD 1, mk.getLsbD 6, mk.getLsbD 2,
    mk.getLsbD 7, mk.getLsbD 0, mk.getLsbD 4]) ∧
  (∀ mk : Key, List.ofFn (seq (deriveK2 mk)) = [mk.getLsbD 2, mk.getLsbD 7, mk.getLsbD 4, mk.getLsbD 5, mk.getLsbD 0,
    mk.getLsbD 8, mk.getLsbD 1, mk.getLsbD 9]) ∧
  (∀ mk : Key, deriveK1 (mk ^^^ 0x100#10) = deriveK1 mk ∧ deriveK1 (mk ^^^ 0x020#10) = deriveK1 mk) ∧
  (∀ mk : Key, deriveK2 (mk ^^^ 0x040#10) = deriveK2 mk ∧ deriveK2 (mk ^^^ 0x008#10) = deriveK2 mk) ∧
  (∀ mk : Key, deriveK1 mk = selectP8 (rotateHalves (permP10 mk) 1) ∧
    deriveK2 mk = selectP8 (rotateHalves (permP10 mk) 3) ∧
    deriveK2 mk = selectP8 (rotateHalves (rotateHalves (permP10 mk) 1) 2)) ∧
  deriveK1 0b1010000010#10 = 0b10100100#8 ∧ deriveK2 0b1010000010#10 = 0b01000011#8

/-- 40 R75: no two master keys give the same pair of round keys, though neither round key alone tells the master key, and
R75's corner cases. -/
def Obligations.RoundKeyPairIsInjective : Prop :=
  (∀ a b : Key, deriveRoundKeys a = deriveRoundKeys b → a = b) ∧
  (∀ mk : Key, deriveRoundKeys mk = (deriveK1 mk, deriveK2 mk)) ∧
  deriveRoundKeys 0x000#10 = (0x00#8, 0x00#8) ∧ deriveRoundKeys 0x3FF#10 = (0xFF#8, 0xFF#8) ∧
  deriveRoundKeys 0b0100000000#10 = (0x00#8, 0x04#8) ∧ (∃ a b : Key, a ≠ b ∧ deriveK2 a = deriveK2 b) ∧
  deriveRoundKeys 0b1010000010#10 = (0b10100100#8, 0b01000011#8) ∧
  (∀ (mk : Key) (b : Block) (s t : State), deriveK1 mk = deriveK2 mk → exec (.loadkey mk) s = .next t →
    exec (.enc b) t = exec (.dec b) t)

/-! ## The block transform -/

/-- 41 R90 to R93: IP, IPI, EP and P4 in register bits, with their fixed points, counts of 1 bits and examples; IP is no
involution (90 C3); EP is injective. -/
def Obligations.BlockPermutationsWiring : Prop :=
  (∀ v : Block, List.ofFn (seq (initialPerm v)) = [v.getLsbD 6, v.getLsbD 2, v.getLsbD 5, v.getLsbD 7, v.getLsbD 4,
    v.getLsbD 0, v.getLsbD 3, v.getLsbD 1]) ∧
  (∀ v : Block, List.ofFn (seq (inverseInitialPerm v)) = [v.getLsbD 4, v.getLsbD 7, v.getLsbD 5, v.getLsbD 3,
    v.getLsbD 1, v.getLsbD 6, v.getLsbD 0, v.getLsbD 2]) ∧
  (∀ v : Half, List.ofFn (seq (expandHalf v)) = [v.getLsbD 0, v.getLsbD 3, v.getLsbD 2, v.getLsbD 1, v.getLsbD 2,
    v.getLsbD 1, v.getLsbD 0, v.getLsbD 3]) ∧
  (∀ v : Half, List.ofFn (seq (permP4 v)) = [v.getLsbD 2, v.getLsbD 0, v.getLsbD 1, v.getLsbD 3]) ∧
  (∀ v : Block, (List.ofFn (seq (initialPerm v))).count true = (List.ofFn (seq v)).count true) ∧
  (∀ v : Block, seq (initialPerm v) 2 = seq v 2) ∧ (∀ v : Half, seq (permP4 v) 2 = seq v 2) ∧
  initialPerm 0x00#8 = 0x00#8 ∧ initialPerm 0xFF#8 = 0xFF#8 ∧ initialPerm 0x80#8 = 0x10#8 ∧
  initialPerm (initialPerm 0x80#8) = 0x08#8 ∧ initialPerm 0b01110010#8 = 0b10101001#8 ∧
  (∀ v : Block, inverseInitialPerm (initialPerm v) = v ∧ initialPerm (inverseInitialPerm v) = v) ∧
  inverseInitialPerm 0b11101101#8 = 0b01110111#8 ∧
  isBijectionTable tableIP = true ∧ isBijectionTable tableIPI = true ∧ isExpansionTable tableEP = true ∧
  isBijectionTable tableP4 = true ∧
  expandHalf 0x0#4 = 0x00#8 ∧ expandHalf 0xF#4 = 0xFF#8 ∧ (∀ a b : Half, expandHalf a = expandHalf b → a = b) ∧
  expandHalf 0b1001#4 = 0b11000011#8 ∧ permP4 0x0#4 = 0x0#4 ∧ permP4 0xF#4 = 0xF#4 ∧ permP4 0b0011#4 = 0b0110#4

/-- 41 R94: IP and IPI are mutual inverses. -/
def Obligations.InitialPermutationInverses : Prop :=
  (∀ x : Block, inverseInitialPerm (initialPerm x) = x) ∧ (∀ x : Block, initialPerm (inverseInitialPerm x) = x)

/-- 41 R95, 90 C2: the three classes of tables, and that P8 and EP are no bijections. -/
def Obligations.TableClasses : Prop :=
  isBijectionTable tableP10 = true ∧ isBijectionTable tableIP = true ∧ isBijectionTable tableIPI = true ∧
  isBijectionTable tableP4 = true ∧ isSelectionTable 2 tableP8 = true ∧ isExpansionTable tableEP = true ∧
  isBijectionTable tableP8 = false ∧ isBijectionTable tableEP = false

/-- 42 R111, R113: row, column and substitution for EVERY pair of S-box tables (93 U8). R113's corner cases and example
name the cells they depend on as assumptions, as U8 asks, so no clause rests on a cell's value. -/
def Obligations.SubstituteReadsTheSelectedCells : Prop :=
  (∀ h : Half, (sboxRow h).val = 2 * (h.getLsbD 3).toNat + (h.getLsbD 0).toNat ∧
    (sboxCol h).val = 2 * (h.getLsbD 2).toNat + (h.getLsbD 1).toNat) ∧
  (∀ (t : SBoxTables) (x : BitVec 8), substitute t x =
    (t.s0.get (sboxRow (x.extractLsb' 4 4))).get (sboxCol (x.extractLsb' 4 4)) ++
    (t.s1.get (sboxRow (x.extractLsb' 0 4))).get (sboxCol (x.extractLsb' 0 4))) ∧
  (∀ t : SBoxTables, ∃ x y : BitVec 8, x ≠ y ∧ substitute t x = substitute t y) ∧
  (∀ t : SBoxTables, (t.s0.get 0).get 0 = 1#2 → (t.s1.get 0).get 0 = 0#2 → substitute t 0x00#8 = 0b0100#4) ∧
  (∀ t : SBoxTables, (t.s0.get 3).get 3 = 2#2 → (t.s1.get 3).get 3 = 3#2 → substitute t 0xFF#8 = 0b1011#4) ∧
  (∀ t : SBoxTables, (t.s0.get 1).get 3 = 0#2 → (t.s1.get 2).get 3 = 0#2 → substitute t 0b01111110#8 = 0b0000#4)

/-- The MODEL's default tables (log entry 4, PRESUMED): every cell of `sboxes` by nibble as 42 R114 lists them, and what
Substitute answers with them. 24 of the 32 cells are general knowledge in the spec itself (42 R110, 93 G1 and U8);
Substitute(0xFF) reads the unconfirmed S0[3][3] and S1[3][3], the other two values confirmed cells only. -/
def Obligations.DefaultSBoxCellsByNibble : Prop :=
  (∀ j : Fin 16, some (sboxCell sboxes.s0 (BitVec.ofFin j)).toNat =
      [1, 3, 0, 2, 3, 1, 2, 0, 0, 3, 2, 1, 1, 3, 3, 2][j.val]? ∧
    some (sboxCell sboxes.s1 (BitVec.ofFin j)).toNat =
      [0, 2, 1, 0, 2, 1, 3, 3, 3, 2, 0, 1, 1, 0, 0, 3][j.val]?) ∧
  substitute sboxes 0x00#8 = 0b0100#4 ∧ substitute sboxes 0xFF#8 = 0b1011#4 ∧ substitute sboxes 0b01111110#8 = 0b0000#4 ∧
  (∃ x y : BitVec 8, x ≠ y ∧ substitute sboxes x = substitute sboxes y)

/-- 43 R130, R131: XOR bit by bit with its laws, and that F depends only on `EP(r) XOR k`, whatever the S-boxes are; its
corner cases and example (confirmed S-box cells only). -/
def Obligations.MixDependsOnKeyedExpansion : Prop :=
  (∀ (n : Nat) (a b : BitVec n) (i : Nat), (xorBits a b).getLsbD i = (a.getLsbD i ^^ b.getLsbD i)) ∧
  (∀ (n : Nat) (a b c : BitVec n), xorBits a a = 0#n ∧ xorBits a 0#n = a ∧ xorBits a b = xorBits b a ∧
    xorBits (xorBits a b) c = xorBits a (xorBits b c)) ∧
  xorBits 0b10010100#8 0b01101110#8 = 0b11111010#8 ∧
  (∀ (t : SBoxTables) (r : Half) (k : RoundKey), mixHalf t r k = permP4 (substitute t (xorBits (expandHalf r) k))) ∧
  (∀ (t : SBoxTables) (r q : Half) (k j : RoundKey), xorBits (expandHalf r) k = xorBits (expandHalf q) j →
    mixHalf t r k = mixHalf t q j) ∧
  mixHalf sboxes 0x0#4 0x00#8 = 0b1000#4 ∧ mixHalf sboxes 0xF#4 0xFF#8 = 0b1000#4 ∧
  mixHalf sboxes 0b1101#4 0b01101100#8 = 0b0110#4

/-- 43 R132: one round leaves the right half and combines the left half with F; it is its own inverse for a fixed key,
whatever the S-boxes are; its example (confirmed S-box cells only). -/
def Obligations.FeistelRoundIsAnInvolution : Prop :=
  (∀ (t : SBoxTables) (x : Block) (k : RoundKey),
    (feistelRound t x k).extractLsb' 0 4 = x.extractLsb' 0 4 ∧
    (feistelRound t x k).extractLsb' 4 4 = x.extractLsb' 4 4 ^^^ mixHalf t (x.extractLsb' 0 4) k ∧
    feistelRound t (feistelRound t x k) k = x) ∧
  feistelRound sboxes 0b11001101#8 0b01101100#8 = 0b10101101#8

/-- 43 R133: the half swap, self-inverse, fixing exactly the values whose halves are equal, as the wiring
[4, 5, 6, 7, 0, 1, 2, 3]. -/
def Obligations.SwapExchangesTheHalves : Prop :=
  (∀ x : Block, swapHalves x = x.extractLsb' 0 4 ++ x.extractLsb' 4 4) ∧
  (∀ x : Block, swapHalves (swapHalves x) = x) ∧
  (∀ x : Block, swapHalves x = x ↔ ∃ h : Half, x = h ++ h) ∧
  (∀ x : Block, swapHalves x = gather (#v[4, 5, 6, 7, 0, 1, 2, 3] : Table 8 8) x) ∧
  swapHalves 0b11011100#8 = 0b11001101#8

/-- 44 R141: EncryptBlock is two rounds with one swap between them, with R141's corner cases and example (confirmed S-box
cells only). -/
def Obligations.EncryptBlockStructure : Prop :=
  (∀ (t : SBoxTables) (p : Block) (k1 k2 : RoundKey), encryptBlock t p k1 k2 =
    inverseInitialPerm (feistelRound t (swapHalves (feistelRound t (initialPerm p) k1)) k2)) ∧
  encryptBlock sboxes 0xFF#8 0xFF#8 0xFF#8 = 0x0F#8 ∧ encryptBlock sboxes 0x00#8 0x00#8 0x00#8 = 0xF0#8 ∧
  encryptBlock sboxes 0xD5#8 0x17#8 0x6C#8 = 0x73#8

/-- 44 R142: DecryptBlock is EncryptBlock with the round keys exchanged and its inverse on both sides, for every block,
every pair of round keys and every pair of S-boxes; its example (confirmed S-box cells only). -/
def Obligations.DecryptInvertsEncrypt : Prop :=
  (∀ (t : SBoxTables) (c : Block) (k1 k2 : RoundKey),
    decryptBlock t c k1 k2 = inverseInitialPerm (feistelRound t (swapHalves (feistelRound t (initialPerm c) k2)) k1) ∧
    decryptBlock t c k1 k2 = encryptBlock t c k2 k1) ∧
  (∀ (t : SBoxTables) (b : Block) (k1 k2 : RoundKey),
    decryptBlock t (encryptBlock t b k1 k2) k1 k2 = b ∧ encryptBlock t (decryptBlock t b k1 k2) k1 k2 = b) ∧
  decryptBlock sboxes 0x73#8 0x17#8 0x6C#8 = 0xD5#8

/-- 44 R147: with equal round keys decryption is encryption and encryption is an involution; two such master keys, and
the example. -/
def Obligations.EqualRoundKeysMakeAnInvolution : Prop :=
  (∀ (t : SBoxTables) (b : Block) (k : RoundKey), decryptBlock t b k k = encryptBlock t b k k ∧
    encryptBlock t (encryptBlock t b k k) k k = b) ∧
  deriveK1 0x000#10 = deriveK2 0x000#10 ∧ deriveK1 0x3FF#10 = deriveK2 0x3FF#10 ∧
  encryptBlock sboxes 0xFF#8 (deriveK1 0x3FF#10) (deriveK2 0x3FF#10) = 0x0F#8 ∧
  encryptBlock sboxes 0x0F#8 (deriveK1 0x3FF#10) (deriveK2 0x3FF#10) = 0xFF#8

/-! ## The host's key parse -/

/-- 44 R140, 30 R58: a string is a key exactly when it has 10 characters, each '0' or '1'; character `i` is then sequence
position `i`; every other string is InvalidKeyError, R140's corner cases among them. SETKEY of a key string issues LOADKEY
of the key; of any other string it issues no command and leaves the core as it is, an earlier key among it. -/
def Obligations.ParseKeyIsStrict : Prop :=
  (∀ (cs : List Char) (k : Key), parseKey cs = .key k ↔
    cs = List.ofFn fun i : Fin 10 => if k.getLsbD (9 - i.val) then '1' else '0') ∧
  (∀ cs : List Char, parseKey cs = .invalidKeyError ↔ cs.length ≠ 10 ∨ ∃ c ∈ cs, c ≠ '0' ∧ c ≠ '1') ∧
  (∀ (cs : List Char) (s : State),
    (parseKey cs = .invalidKeyError → runActions (lineActions (.setkey cs)) s = .next (s, [.invalidKeyError])) ∧
    (∀ k, parseKey cs = .key k → runActions (lineActions (.setkey cs)) s =
      .next ({ s with
        masterKey := k, k1 := deriveK1 k, k2 := deriveK2 k, kv := true, dv := false, err := 0b00#2,
        inputs := s.inputs.tail }, []))) ∧
  parseKey "1010000010".toList = .key 0x282#10 ∧ parseKey [] = .invalidKeyError ∧
  parseKey "101000001O".toList = .invalidKeyError ∧ parseKey "1010 00010".toList = .invalidKeyError ∧
  parseKey "0000000000".toList = .key 0x000#10 ∧ parseKey "1111111111".toList = .key 0x3FF#10
end

