-- ==== Sys2Proof/Laws/State.lean ====
section
/-!
SUPPORT. Every field after every named operation on the state: one lemma per field and operation, true by unfolding, so
that no later proof unfolds a record update.
-/

namespace Sys2Proof.Machine

@[simp] theorem consumePorts_masterKey (s : State) : (consumePorts s).masterKey = s.masterKey := rfl
@[simp] theorem consumePorts_k1 (s : State) : (consumePorts s).k1 = s.k1 := rfl
@[simp] theorem consumePorts_k2 (s : State) : (consumePorts s).k2 = s.k2 := rfl
@[simp] theorem consumePorts_kv (s : State) : (consumePorts s).kv = s.kv := rfl
@[simp] theorem consumePorts_dout (s : State) : (consumePorts s).dout = s.dout := rfl
@[simp] theorem consumePorts_dv (s : State) : (consumePorts s).dv = s.dv := rfl
@[simp] theorem consumePorts_err (s : State) : (consumePorts s).err = s.err := rfl
@[simp] theorem consumePorts_inputs (s : State) : (consumePorts s).inputs = s.inputs.tail := rfl
@[simp] theorem consumePorts_draws (s : State) : (consumePorts s).draws = s.draws := rfl

@[simp] theorem presentPort_masterKey (p : PortIn) (s : State) : (presentPort p s).masterKey = s.masterKey := rfl
@[simp] theorem presentPort_k1 (p : PortIn) (s : State) : (presentPort p s).k1 = s.k1 := rfl
@[simp] theorem presentPort_k2 (p : PortIn) (s : State) : (presentPort p s).k2 = s.k2 := rfl
@[simp] theorem presentPort_kv (p : PortIn) (s : State) : (presentPort p s).kv = s.kv := rfl
@[simp] theorem presentPort_dout (p : PortIn) (s : State) : (presentPort p s).dout = s.dout := rfl
@[simp] theorem presentPort_dv (p : PortIn) (s : State) : (presentPort p s).dv = s.dv := rfl
@[simp] theorem presentPort_err (p : PortIn) (s : State) : (presentPort p s).err = s.err := rfl
@[simp] theorem presentPort_inputs (p : PortIn) (s : State) : (presentPort p s).inputs = p :: s.inputs.tail := rfl
@[simp] theorem presentPort_draws (p : PortIn) (s : State) : (presentPort p s).draws = s.draws := rfl

@[simp] theorem resetCore_masterKey (s : State) : (resetCore s).masterKey = Config.drawMk s.draws := rfl
@[simp] theorem resetCore_k1 (s : State) : (resetCore s).k1 = Config.drawK1 s.draws := rfl
@[simp] theorem resetCore_k2 (s : State) : (resetCore s).k2 = Config.drawK2 s.draws := rfl
@[simp] theorem resetCore_kv (s : State) : (resetCore s).kv = false := rfl
@[simp] theorem resetCore_dout (s : State) : (resetCore s).dout = Config.drawDout s.draws := rfl
@[simp] theorem resetCore_dv (s : State) : (resetCore s).dv = false := rfl
@[simp] theorem resetCore_err (s : State) : (resetCore s).err = 0b00#2 := rfl
@[simp] theorem resetCore_inputs (s : State) : (resetCore s).inputs = s.inputs := rfl
@[simp] theorem resetCore_draws (s : State) : (resetCore s).draws = s.draws + 1 := rfl

@[simp] theorem raiseError_masterKey (e : ErrCode) (s : State) : (raiseError e s).masterKey = s.masterKey := rfl
@[simp] theorem raiseError_k1 (e : ErrCode) (s : State) : (raiseError e s).k1 = s.k1 := rfl
@[simp] theorem raiseError_k2 (e : ErrCode) (s : State) : (raiseError e s).k2 = s.k2 := rfl
@[simp] theorem raiseError_kv (e : ErrCode) (s : State) : (raiseError e s).kv = s.kv := rfl
@[simp] theorem raiseError_dout (e : ErrCode) (s : State) : (raiseError e s).dout = s.dout := rfl
@[simp] theorem raiseError_dv (e : ErrCode) (s : State) : (raiseError e s).dv = false := rfl
@[simp] theorem raiseError_err (e : ErrCode) (s : State) : (raiseError e s).err = errCode e := rfl
@[simp] theorem raiseError_inputs (e : ErrCode) (s : State) : (raiseError e s).inputs = s.inputs := rfl
@[simp] theorem raiseError_draws (e : ErrCode) (s : State) : (raiseError e s).draws = s.draws := rfl

@[simp] theorem installKey_masterKey (k : Key) (ks : RoundKey × RoundKey) (s : State) :
    (installKey k ks s).masterKey = k := rfl
@[simp] theorem installKey_k1 (k : Key) (ks : RoundKey × RoundKey) (s : State) : (installKey k ks s).k1 = ks.1 := rfl
@[simp] theorem installKey_k2 (k : Key) (ks : RoundKey × RoundKey) (s : State) : (installKey k ks s).k2 = ks.2 := rfl
@[simp] theorem installKey_kv (k : Key) (ks : RoundKey × RoundKey) (s : State) : (installKey k ks s).kv = true := rfl
@[simp] theorem installKey_dout (k : Key) (ks : RoundKey × RoundKey) (s : State) :
    (installKey k ks s).dout = s.dout := rfl
@[simp] theorem installKey_dv (k : Key) (ks : RoundKey × RoundKey) (s : State) : (installKey k ks s).dv = false := rfl
@[simp] theorem installKey_err (k : Key) (ks : RoundKey × RoundKey) (s : State) :
    (installKey k ks s).err = 0b00#2 := rfl
@[simp] theorem installKey_inputs (k : Key) (ks : RoundKey × RoundKey) (s : State) :
    (installKey k ks s).inputs = s.inputs := rfl
@[simp] theorem installKey_draws (k : Key) (ks : RoundKey × RoundKey) (s : State) :
    (installKey k ks s).draws = s.draws := rfl

@[simp] theorem deliverBlock_masterKey (d : Block) (s : State) : (deliverBlock d s).masterKey = s.masterKey := rfl
@[simp] theorem deliverBlock_k1 (d : Block) (s : State) : (deliverBlock d s).k1 = s.k1 := rfl
@[simp] theorem deliverBlock_k2 (d : Block) (s : State) : (deliverBlock d s).k2 = s.k2 := rfl
@[simp] theorem deliverBlock_kv (d : Block) (s : State) : (deliverBlock d s).kv = s.kv := rfl
@[simp] theorem deliverBlock_dout (d : Block) (s : State) : (deliverBlock d s).dout = d := rfl
@[simp] theorem deliverBlock_dv (d : Block) (s : State) : (deliverBlock d s).dv = true := rfl
@[simp] theorem deliverBlock_err (d : Block) (s : State) : (deliverBlock d s).err = 0b00#2 := rfl
@[simp] theorem deliverBlock_inputs (d : Block) (s : State) : (deliverBlock d s).inputs = s.inputs := rfl
@[simp] theorem deliverBlock_draws (d : Block) (s : State) : (deliverBlock d s).draws = s.draws := rfl

@[simp] theorem reset_kv : State.reset.kv = false := rfl
@[simp] theorem reset_dv : State.reset.dv = false := rfl
@[simp] theorem reset_err : State.reset.err = 0b00#2 := rfl
@[simp] theorem reset_inputs : State.reset.inputs = [] := rfl

end Sys2Proof.Machine
end

