-- ==== Sys2Proof/Laws/Ops.lean ====
section
/-!
SUPPORT. What the shared operations can do, once each.
-/

namespace Sys2Proof.Machine

@[simp] theorem samplePorts_presentPort (p : PortIn) (s : State) : samplePorts (presentPort p s) = p := rfl

@[simp] theorem consumePorts_presentPort (p : PortIn) (s : State) :
    consumePorts (presentPort p s) = consumePorts s := rfl

/-- With inputs listed, the first is sampled. -/
theorem samplePorts_cons {p : PortIn} {ps : List PortIn} {s : State} (h : s.inputs = p :: ps) : samplePorts s = p := by
  rw [samplePorts, h, List.headD_cons]

@[simp] theorem portAction_commandPort (w : CmdWord) : portAction (commandPort w) = .command w := rfl

@[simp] theorem portAction_resetPort : portAction resetPort = .reset := rfl

@[simp] theorem portAction_idlePort : portAction idlePort = .idle := rfl

theorem portAction_of_rst {p : PortIn} (h : p.rst = true) : portAction p = .reset := by
  rw [portAction, if_pos h]

theorem portAction_of_cmdValid {p : PortIn} (h : p.rst = false) (hv : p.cmdValid = true) :
    portAction p = .command p.cmd := by
  simp [portAction, h, hv]

theorem portAction_of_not_cmdValid {p : PortIn} (h : p.rst = false) (hv : p.cmdValid = false) :
    portAction p = .idle := by
  simp [portAction, h, hv]

/-- ENC's and DEC's common end: a result with a key, NO_KEY without one (44 R144, R145). -/
theorem deliverIfKeyed_cases {d : Block} {s t : State} (h : deliverIfKeyed d s = .next t) :
    (s.kv = true ∧ t = deliverBlock d s) ∨ (s.kv = false ∧ t = raiseError .noKey s) := by
  unfold deliverIfKeyed at h
  split at h
  · next hk => exact .inl ⟨hk, (Host.Outcome.next.inj h).symm⟩
  · next hk => exact .inr ⟨by simpa using hk, (Host.Outcome.next.inj h).symm⟩

theorem deliverIfKeyed_keyed (d : Block) {s : State} (h : s.kv = true) :
    deliverIfKeyed d s = .next (deliverBlock d s) := by
  rw [deliverIfKeyed, if_pos h]

theorem deliverIfKeyed_unkeyed (d : Block) {s : State} (h : s.kv = false) :
    deliverIfKeyed d s = .next (raiseError .noKey s) := by
  simp [deliverIfKeyed, h]

end Sys2Proof.Machine
end

