-- ==== Sys2Proof/Laws/Step.lean ====
section
/-!
SUPPORT. What a command and a step can do, once each: every statement about steps is a case analysis over these.
-/

namespace Sys2Proof.Machine

/-- What a command does if it answers a next state. -/
theorem exec_cases {i : Instr} {s t : State} (h : exec i s = .next t) :
    (∃ k, i = .loadkey k ∧ t = installKey k (deriveRoundKeys k) s) ∨
    (∃ b, i = .enc b ∧ s.kv = true ∧ t = deliverBlock (encryptBlock sboxes b s.k1 s.k2) s) ∨
    (∃ b, i = .dec b ∧ s.kv = true ∧ t = deliverBlock (decryptBlock sboxes b s.k1 s.k2) s) ∨
    ((∃ b, i = .enc b ∨ i = .dec b) ∧ s.kv = false ∧ t = raiseError .noKey s) := by
  cases i with
  | loadkey k => exact .inl ⟨k, rfl, (Host.Outcome.next.inj h).symm⟩
  | enc b =>
    obtain ⟨hk, rfl⟩ | ⟨hk, rfl⟩ := deliverIfKeyed_cases h
    · exact .inr (.inl ⟨b, rfl, hk, rfl⟩)
    · exact .inr (.inr (.inr ⟨⟨b, .inl rfl⟩, hk, rfl⟩))
  | dec b =>
    obtain ⟨hk, rfl⟩ | ⟨hk, rfl⟩ := deliverIfKeyed_cases h
    · exact .inr (.inr (.inl ⟨b, rfl, hk, rfl⟩))
    · exact .inr (.inr (.inr ⟨⟨b, .inr rfl⟩, hk, rfl⟩))

/-- What a word on the command port does: its command, or ILLEGAL. -/
theorem execute_cases {w : CmdWord} {s t : State} (h : execute w s = .next t) :
    (∃ i, decode w = .command i ∧ exec i s = .next t) ∨
    (∃ why, decode w = .illegal why ∧ t = raiseError .illegal s) := by
  unfold execute at h
  split at h
  · next i hi => exact .inl ⟨i, hi, h⟩
  · next why hw => exact .inr ⟨why, hw, (Host.Outcome.next.inj h).symm⟩

theorem execute_of_decode {w : CmdWord} {i : Instr} (h : decode w = .command i) (s : State) :
    execute w s = exec i s := by
  rw [execute, h]

theorem execute_of_illegal {w : CmdWord} {why : IllegalReason} (h : decode w = .illegal why) (s : State) :
    execute w s = .next (raiseError .illegal s) := by
  rw [execute, h]
  rfl

/-- What a step with given ports does: reset, the word on the port, or nothing. -/
theorem stepPort_cases {p : PortIn} {s t : State} (h : stepPort p s = .next t) :
    (p.rst = true ∧ t = resetCore s) ∨
    (p.rst = false ∧ p.cmdValid = true ∧ execute p.cmd s = .next t) ∨
    (p.rst = false ∧ p.cmdValid = false ∧ t = s) := by
  cases hr : p.rst with
  | true =>
    rw [stepPort, portAction_of_rst hr] at h
    exact .inl ⟨rfl, (Host.Outcome.next.inj h).symm⟩
  | false =>
    cases hv : p.cmdValid with
    | true =>
      rw [stepPort, portAction_of_cmdValid hr hv] at h
      exact .inr (.inl ⟨rfl, rfl, h⟩)
    | false =>
      rw [stepPort, portAction_of_not_cmdValid hr hv] at h
      exact .inr (.inr ⟨rfl, rfl, (Host.Outcome.next.inj h).symm⟩)

/-- A step is `stepPort` of what is sampled, at the state that has consumed it. -/
theorem step_eq (s : State) : step s = stepPort (samplePorts s) (consumePorts s) := rfl

theorem step_presentPort (p : PortIn) (s : State) : step (presentPort p s) = stepPort p (consumePorts s) := rfl

theorem stepPort_commandPort (w : CmdWord) (s : State) : stepPort (commandPort w) s = execute w s := rfl

end Sys2Proof.Machine
end

