-- ==== Sys2Proof/Laws/Listing.lean ====
section
/-!
SUPPORT. Runs of host actions: one action after another.
-/

namespace Sys2Proof.Machine

theorem runActions_nil (s : State) : runActions [] s = .next (s, []) := rfl

/-- A run whose first action answers a state goes on from it, its observations first. -/
theorem runActions_cons {a : HostAction} {as : List HostAction} {s s1 t : State} {o os : List Observation}
    (h : hostAct a s = .next (s1, o)) (h' : runActions as s1 = .next (t, os)) :
    runActions (a :: as) s = .next (t, o ++ os) := by
  simp only [runActions, h, h']

/-- A run of two lists is the second run from where the first ends. -/
theorem runActions_append {as bs : List HostAction} : ∀ {s s1 t : State} {o os : List Observation},
    runActions as s = .next (s1, o) → runActions bs s1 = .next (t, os) →
    runActions (as ++ bs) s = .next (t, o ++ os) := by
  induction as with
  | nil =>
    intro s s1 t o os h h'
    obtain ⟨rfl, rfl⟩ := Prod.mk.inj (Host.Outcome.next.inj h)
    simpa using h'
  | cons a as ih =>
    intro s s1 t o os h h'
    cases ha : hostAct a s with
    | next r =>
      obtain ⟨r1, r2⟩ := r
      cases hr : runActions as r1 with
      | next q =>
        obtain ⟨q1, q2⟩ := q
        have hq : (q1, r2 ++ q2) = (s1, o) := by simpa [runActions, ha, hr] using h
        obtain ⟨rfl, rfl⟩ := Prod.mk.inj hq
        simpa [List.append_assoc] using runActions_cons ha (ih hr h')
      | fault f => simp [runActions, ha, hr] at h
      | refused f => simp [runActions, ha, hr] at h
    | fault f => simp [runActions, ha] at h
    | refused f => simp [runActions, ha] at h

end Sys2Proof.Machine
end

