-- ==== Sys2Proof/Laws/Operands.lean ====
section
/-!
SUPPORT. What the sequence operations answer, position by position (00_scope.md R9, R11).
-/

namespace Sys2Proof.Machine

/-- Register bit `m-1-i` of `ofSeq m f` is `f i`. -/
theorem ofSeq_getLsbD : ∀ {m : Nat} (f : Fin m → Bool) (i : Fin m), (ofSeq m f).getLsbD (m - 1 - i.val) = f i := by
  intro m
  induction m with
  | zero => exact fun _ i => i.elim0
  | succ m ih =>
    intro f i
    cases i using Fin.cases with
    | zero =>
      show (BitVec.cons (f 0) _).getLsbD m = f 0
      rw [BitVec.getLsbD_cons, if_pos rfl]
    | succ i =>
      have hlt : m - 1 - i.val < m := by omega
      have hne : m - 1 - i.val ≠ m := by omega
      have hsub : m + 1 - 1 - i.succ.val = m - 1 - i.val := by simp; omega
      rw [hsub, ofSeq, BitVec.getLsbD_cons, if_neg hne]
      exact ih (fun i => f i.succ) i

/-- Sequence position `i` of `ofSeq m f` is `f i`. -/
@[simp] theorem seq_ofSeq {m : Nat} (f : Fin m → Bool) (i : Fin m) : seq (ofSeq m f) i = f i := ofSeq_getLsbD f i

/-- Gather puts input position `T[i]` at output position `i` (R11). -/
@[simp] theorem seq_gather {n m : Nat} (T : Table n m) (v : BitVec n) (i : Fin m) :
    seq (gather T v) i = seq v (T.get i) := seq_ofSeq _ i

/-- Two vectors with the same sequence are equal. -/
theorem eq_of_seq_eq {n : Nat} {a b : BitVec n} (h : ∀ i, seq a i = seq b i) : a = b := by
  apply BitVec.eq_of_getLsbD_eq
  intro i hi
  have h1 := h ⟨n - 1 - i, by omega⟩
  have hii : n - 1 - (n - 1 - i) = i := by omega
  simpa [seq, hii] using h1

/-- Gathering twice reads through both tables. -/
theorem gather_gather {n m l : Nat} (T : Table n m) (U : Table m l) (v : BitVec n) :
    gather U (gather T v) = ofSeq l fun i => seq v (T.get (U.get i)) :=
  eq_of_seq_eq fun i => by simp

/-- The halves of a concatenation of halves. -/
@[simp] theorem leftHalf_append (a b : Half) : leftHalf (a ++ b) = a := by
  apply BitVec.eq_of_getLsbD_eq
  intro i hi
  have hd : (leftHalf (a ++ b)).getLsbD i = (a ++ b).getLsbD (4 + i) := by simp [leftHalf, hi]
  rw [hd, BitVec.getLsbD_append, if_neg (by omega), Nat.add_sub_cancel_left]

@[simp] theorem rightHalf_append (a b : Half) : rightHalf (a ++ b) = b := by
  apply BitVec.eq_of_getLsbD_eq
  intro i hi
  have hd : (rightHalf (a ++ b)).getLsbD i = (a ++ b).getLsbD i := by simp [rightHalf, hi]
  rw [hd, BitVec.getLsbD_append, if_pos hi]

/-- A block is its two halves. -/
theorem halves_append (x : Block) : leftHalf x ++ rightHalf x = x := by
  apply BitVec.eq_of_getLsbD_eq
  intro i hi
  simp only [leftHalf, rightHalf, BitVec.getLsbD_append, BitVec.getLsbD_extractLsb']
  split
  · next h => simp [h]
  · next h => simp [show i - 4 < 4 by omega, show 4 + (i - 4) = i by omega]

end Sys2Proof.Machine
end

