-- ==== Sys2Proof/Laws/PerInstr.lean ====
section
/-!
SUPPORT. A family of statements about the commands as syntax, one lemma per constructor: the bits that
spec/opcode_table.json fixes for a row are fixed so by `encode`.
-/

namespace Sys2Proof.Laws.FixedBits

/-- The encoding agrees with the row's mask and match (30_encoding.md R55, R56). -/
def Statement (i : Instr) : Prop := encode i &&& tableMask i = tableMatch i

/-- A bit of a row's high bits, read through the operand's append. -/
theorem append_and_high {n : Nat} (m : BitVec (12 - n)) (v : BitVec n) (a : BitVec (12 - n)) :
    (a ++ v) &&& (m ++ 0#n) = (a &&& m) ++ 0#n := by
  apply BitVec.eq_of_getLsbD_eq
  intro i hi
  simp only [BitVec.getLsbD_and, BitVec.getLsbD_append, BitVec.getLsbD_zero]
  split <;> simp

theorem loadkey (key : Key) : Statement (.loadkey key) :=
  append_and_high (n := 10) 0b11#2 key 0b01#2

theorem enc (block : Block) : Statement (.enc block) :=
  append_and_high (n := 8) 0b1111#4 block 0b1000#4

theorem dec (block : Block) : Statement (.dec block) :=
  append_and_high (n := 8) 0b1111#4 block 0b1100#4

end Sys2Proof.Laws.FixedBits
end

