-- ==== Sys2Proof/Tests/Slice0.lean ====
section
/-!
SUPPORT. The model's own tests: single steps against the vectors of 95_test_vectors.md (named at each), the smoke tests of
WellFormed, one decoded word per class, and for each obligation with hypotheses a state and operands that meet them.
-/

namespace Sys2Proof.Tests

open Sys2Proof.Machine

/-- A state with the key of W10 loaded (V-CMD-6's "before", DOUT and MK as there) and nothing presented. -/
def keyed : State where
  masterKey := 0x1D1#10
  k1 := 0x17#8
  k2 := 0x6C#8
  kv := true
  dout := 0x73#8
  dv := true
  err := 0b00#2
  inputs := []
  draws := 1

/-- The same with no key: what a reset leaves, with values in the place of the draws. -/
def unkeyed : State := { keyed with kv := false, dv := false }

/-- A state whose next port values are `p`. -/
def presenting (p : PortIn) (s : State) : State := { s with inputs := [p] }

/-- The state a step answers, if it answers one. -/
def nextOf (o : Host.Outcome State Fault Refusal) : Option State :=
  match o with
  | .next t => some t
  | _ => none

/-! ## Decoding words written out from 30_encoding.md R55 and V-ENC -/

theorem test_decode_loadkey : decode 0b011010000010#12 = .command (.loadkey 0x282#10) := by decide
theorem test_decode_loadkey_highest : decode 0x7FF#12 = .command (.loadkey 0x3FF#10) := by decide
theorem test_decode_enc : decode 0b100011010101#12 = .command (.enc 0xD5#8) := by decide
theorem test_decode_enc_lowest : decode 0x800#12 = .command (.enc 0x00#8) := by decide
theorem test_decode_dec : decode 0b110001110011#12 = .command (.dec 0x73#8) := by decide
theorem test_decode_dec_highest : decode 0xCFF#12 = .command (.dec 0xFF#8) := by decide
theorem test_decode_all_zero : decode 0x000#12 = .illegal .opZero := by decide
theorem test_decode_op_zero_highest : decode 0x3FF#12 = .illegal .opZero := by decide
theorem test_decode_enc_reserved : decode 0x900#12 = .illegal .reservedBits := by decide
theorem test_decode_dec_reserved : decode 0xEAA#12 = .illegal .reservedBits := by decide
theorem test_encode : encode (.loadkey 0x282#10) = 0x682#12 ∧ encode (.enc 0xD5#8) = 0x8D5#12 ∧
    encode (.dec 0x73#8) = 0xC73#12 := by decide
theorem test_table_word : decodeTableWord 16 0x682 = some (.loadkey 0x282#10) ∧ decodeTableWord 16 0x1682 = none ∧
    decodeTableWord 16 0xD00 = none := by decide

/-! ## WellFormed: an ill-formed term for each check (V-ASM, 90_conflicts.md C2) -/

theorem smoke_loadkey_operand : (SourceLine.loadkey 0x400).wellFormed = false ∧ assembleLine (.loadkey 0x400) = none := by
  decide
theorem smoke_enc_operand : (SourceLine.enc 0x100).wellFormed = false ∧ assembleText "ENC 0x100".toList = none := by decide
theorem smoke_dec_operand : (SourceLine.dec 0x100).wellFormed = false ∧ (SourceLine.dec 0xFF).wellFormed = true := by
  decide
theorem smoke_bijection : isBijectionTable (#v[0, 1, 1] : Table 3 3) = false := by decide
theorem smoke_selection : isSelectionTable 2 (#v[0, 2, 3] : Table 4 3) = false := by decide
theorem smoke_expansion : isExpansionTable (#v[0, 0, 1] : Table 2 3) = false := by decide

/-! ## Commands, one step each (V-CMD) -/

/-- V-CMD-9: LOADKEY replaces the key; DV cleared, DOUT kept. -/
theorem test_loadkey : nextOf (step (presenting (commandPort 0x682#12) keyed)) =
    some { keyed with masterKey := 0x282#10, k1 := 0xA4#8, k2 := 0x43#8, dv := false } := by decide
/-- The last one-hot row of V-KS-DRK: key position 9. -/
theorem test_loadkey_one_hot : nextOf (execLoadkey 0x001#10 unkeyed) =
    some { unkeyed with masterKey := 0x001#10, k1 := 0x02#8, k2 := 0x08#8, kv := true } := by decide
/-- V-CMD-6 (W10). -/
theorem test_enc : nextOf (step (presenting (commandPort 0x8D5#12) { keyed with dout := 0x00#8, dv := false })) =
    some keyed := by decide
/-- V-CMD-1: NO_KEY. -/
theorem test_enc_no_key : nextOf (step (presenting (commandPort 0x8D5#12) unkeyed)) =
    some { unkeyed with err := 0b10#2 } := by decide
/-- V-CMD-7 (W11). -/
theorem test_dec : nextOf (step (presenting (commandPort 0xC73#12) keyed)) = some { keyed with dout := 0xD5#8 } := by
  decide
/-- V-CMD-2: NO_KEY. -/
theorem test_dec_no_key : nextOf (step (presenting (commandPort 0xC73#12) unkeyed)) =
    some { unkeyed with err := 0b10#2 } := by decide
/-- V-CMD-8: ILLEGAL after a result. -/
theorem test_illegal : nextOf (step (presenting (commandPort 0x9D5#12) keyed)) =
    some { keyed with dv := false, err := 0b01#2 } := by decide
/-- V-CMD-3: ILLEGAL wins over NO_KEY. -/
theorem test_illegal_without_key : nextOf (step (presenting (commandPort 0x000#12) unkeyed)) =
    some { unkeyed with err := 0b01#2 } := by decide
/-- V-CMD-10: an idle step. -/
theorem test_idle : nextOf (step (presenting { rst := false, cmdValid := false, cmd := 0x000#12 } keyed)) =
    some keyed := by decide
/-- V-CMD-11: reset with a command in the same step; only the flags have values. -/
theorem test_reset : (nextOf (step (presenting { rst := true, cmdValid := true, cmd := 0x8D5#12 } keyed))).map
    (fun t => (t.kv, t.dv, t.err, statusOf t)) = some (false, false, 0b00#2, 0x00#8) := by decide

/-! ## Functions, against vectors with no U8 mark where a cipher value is fixed -/

/-- W1 to W4. -/
theorem test_key_functions : permP10 0b1001001100#10 = 0b0001101010#10 ∧ selectP8 0b1001001100#10 = 0b00111000#8 ∧
    rotateHalves 0b1000001100#10 1 = 0b0000111000#10 ∧ rotateHalves 0b1000001100#10 3 = 0b0010000011#10 := by decide
/-- W6 to W8 and V-PN-P4. -/
theorem test_block_permutations : initialPerm 0x72#8 = 0xA9#8 ∧ inverseInitialPerm 0xED#8 = 0x77#8 ∧
    expandHalf 0x9#4 = 0xC3#8 ∧ permP4 0x3#4 = 0x6#4 ∧ swapHalves 0xDC#8 = 0xCD#8 := by decide
/-- V-FR-FK, and W12. -/
theorem test_round_and_block : feistelRound sboxes 0xCD#8 0x6C#8 = 0xAD#8 ∧
    encryptBlock sboxes 0xFF#8 0xFF#8 0xFF#8 = 0x0F#8 := by decide
/-- V-BC-TAB and V-BC-DEC corners (U8 cells: log entry 4). -/
theorem test_table_corners : encryptBlock sboxes 0x00#8 0xA4#8 0x43#8 = 0xCE#8 ∧
    encryptBlock sboxes 0xF0#8 0xA4#8 0x43#8 = 0x6D#8 ∧ decryptBlock sboxes 0x07#8 0xA4#8 0x43#8 = 0xDB#8 := by decide

/-! ## The host's side -/

/-- V-PK. -/
theorem test_parseKey : parseKey "0111010001".toList = .key 0x1D1#10 ∧ parseKey "0b10100000".toList = .invalidKeyError ∧
    parseKey "10100000101".toList = .invalidKeyError := by decide
/-- V-ASM and R57, R58. -/
theorem test_text : assembleText "LOADKEY 0x1D1".toList = some 0x5D1#12 ∧
    listingLineOfText "ENCB 0xFF".toList = some (.encb 0xFF#8) ∧
    listingLineOfText "RD STATUS".toList = some .rdStatus ∧ listingLineOfText "ENC 0b1".toList = none := by decide
/-- 10 R26, U2, U4 and V-CMD's STATUS column. -/
theorem test_reads : statusOf keyed = 0x03#8 ∧ statusOf { unkeyed with err := 0b10#2 } = 0x08#8 ∧
    (match readDout unkeyed with | .fault .doutNotValid => true | _ => false) = true ∧
    (match readStatus { keyed with err := 0b11#2 } with | .fault .errCodeUnassigned => true | _ => false) = true := by
  decide

/-! ## Witnesses: every obligation's hypotheses are met -/

theorem witness_StepRunsTheDecodedCommand :
    (samplePorts (presenting (commandPort 0x8D5#12) keyed)).rst = false ∧
    (samplePorts (presenting (commandPort 0x8D5#12) keyed)).cmdValid = true ∧
    decode (samplePorts (presenting (commandPort 0x8D5#12) keyed)).cmd = .command (.enc 0xD5#8) := by decide
theorem witness_PresentedWordIsTheNextCommand : decodeTableWord 16 0x7FF = some (.loadkey 0x3FF#10) := by decide
theorem witness_IdleStepsChangeNothing :
    (∀ p ∈ [idlePort, idlePort], p.rst = false ∧ p.cmdValid = false) ∧
    ({ keyed with inputs := [idlePort, idlePort, resetPort] } : State).inputs =
      [idlePort, idlePort] ++ [resetPort] := by decide
theorem witness_ResetClearsTheFlags : (samplePorts (presenting resetPort keyed)).rst = true := by decide
theorem witness_ResetBeatsACommand : resetPort.rst = true ∧
    ({ rst := true, cmdValid := true, cmd := 0x8D5#12 } : PortIn).rst = true := by decide
theorem witness_IllegalWordsReportIllegal :
    (samplePorts (presenting (commandPort 0xFFF#12) keyed)).rst = false ∧
    (samplePorts (presenting (commandPort 0xFFF#12) keyed)).cmdValid = true ∧
    decode (samplePorts (presenting (commandPort 0xFFF#12) keyed)).cmd = .illegal .reservedBits ∧
    decode (samplePorts (presenting (commandPort 0x3FF#12) keyed)).cmd = .illegal .opZero := by decide
theorem witness_LoadkeyInstallsTheKey : (0x7FF#12).extractLsb' 10 2 = 0b01#2 ∧ (0x7FF#12).extractLsb' 0 10 = 0x3FF#10 := by
  decide
/-- For NoKeyWithoutAKey (no key) and BlocksAreIndependent (a key). -/
theorem witness_keyed_and_unkeyed : keyed.kv = true ∧ unkeyed.kv = false := by decide
theorem witness_EncWritesTheCiphertext : keyed.kv = true ∧ unkeyed.kv = false ∧ nextOf (exec (.enc 0xD5#8) keyed) = some keyed ∧
    (nextOf (exec (.loadkey 0b0111010001#10) unkeyed)).isSome = true := by decide
theorem witness_DecWritesThePlaintext : keyed.kv = true ∧ unkeyed.kv = false ∧
    ({ keyed with k2 := 0x17#8 } : State).k1 = ({ keyed with k2 := 0x17#8 } : State).k2 ∧
    nextOf (exec (.enc 0xD5#8) keyed) = some keyed := by decide
theorem witness_LoadkeyFrame : (nextOf (exec (.loadkey 0x3FF#10) keyed)).isSome = true := by decide
theorem witness_EncDecFrame : (nextOf (exec (.enc 0xFF#8) keyed)).isSome = true ∧
    (nextOf (exec (.dec 0x00#8) keyed)).isSome = true ∧ (nextOf (exec (.dec 0x00#8) unkeyed)).isSome = true ∧
    unkeyed.kv = false := by decide
theorem witness_NextStepSeesTheNewKey :
    ({ keyed with inputs := [commandPort (encode (.loadkey 0x282#10)), commandPort (encode (.enc 0x00#8))] } : State).inputs =
      commandPort (encode (.loadkey 0x282#10)) :: commandPort (encode (.enc 0x00#8)) :: [] ∧
    ({ keyed with inputs := [commandPort (encode (.loadkey 0x282#10)), commandPort (encode (.dec 0xFF#8))] } : State).inputs =
      commandPort (encode (.loadkey 0x282#10)) :: commandPort (encode (.dec 0xFF#8)) :: [] := by decide
theorem witness_CachedKeysEqualRecomputedKeys : keyed.CacheInv ∧ keyed.kv = true := by decide
/-- A step of each kind (reset, each command, an illegal word, idle) answers a next state, for the statements about any
step: KeyValid, DataValid, ErrorField, DataOut, KeyRegisters. -/
theorem witness_every_kind_of_step :
    (nextOf (step (presenting resetPort keyed))).isSome = true ∧
    (nextOf (step (presenting (commandPort 0x5D1#12) keyed))).isSome = true ∧
    (nextOf (step (presenting (commandPort 0x8D5#12) keyed))).isSome = true ∧
    (nextOf (step (presenting (commandPort 0xC73#12) unkeyed))).isSome = true ∧
    (nextOf (step (presenting (commandPort 0x000#12) keyed))).isSome = true ∧
    (nextOf (step (presenting idlePort keyed))).isSome = true := by decide
/-- The clauses of KeyValidAfterAnyStep at their three kinds of step, LOADKEY and another command apart. -/
theorem witness_KeyValidAfterAnyStep : (samplePorts (presenting resetPort keyed)).rst = true ∧
    decode (samplePorts (presenting (commandPort 0x400#12) unkeyed)).cmd = .command (.loadkey 0x000#10) ∧
    (∀ k, decode (samplePorts (presenting (commandPort 0x8FF#12) keyed)).cmd ≠ .command (.loadkey k)) ∧
    (samplePorts keyed).rst = false ∧ (samplePorts keyed).cmdValid = false := by
  refine ⟨by decide, by decide, fun k h => ?_, by decide, by decide⟩
  have hd : decode (samplePorts (presenting (commandPort 0x8FF#12) keyed)).cmd = .command (.enc 0xFF#8) := by decide
  rw [hd] at h
  cases h
theorem witness_DataValidAfterAnyStep : unkeyed.dv = false ∧ keyed.dv = true ∧ (samplePorts keyed).cmdValid = false := by decide
/-- ErrorFieldAfterAnyStep's second clause: an idle step from ERR = 3 keeps it. -/
theorem witness_ErrorFieldAfterAnyStep :
    nextOf (step { keyed with err := 0b11#2 }) = some { keyed with err := 0b11#2 } := by decide
theorem witness_DataOutChangesOnlyByEncDec : (samplePorts (presenting (commandPort 0xC73#12) keyed)).rst = false ∧
    (nextOf (step (presenting (commandPort 0xC73#12) keyed))).map (fun t => decide (t.dout ≠ keyed.dout)) = some true := by
  decide
theorem witness_EveryStepKeepsTheInvariant : keyed.Inv ∧ unkeyed.Inv := by decide
/-- For StepsKeepStatesLookingAlike and RunsObserveNothingHidden: two different states that look alike, before a key is
loaded. -/
theorem witness_LooksLike : unkeyed.LooksLike { unkeyed with masterKey := 0#10, k1 := 0#8, k2 := 0#8, dout := 0#8, draws := 7 } ∧
    unkeyed ≠ { unkeyed with masterKey := 0#10, k1 := 0#8, k2 := 0#8, dout := 0#8, draws := 7 } := by decide
/-- StepsKeepStatesLookingAlike's second clause: the same reset from two states that do not look alike. -/
theorem witness_StepsKeepStatesLookingAlike : (presenting resetPort keyed).inputs = (presenting resetPort unkeyed).inputs ∧
    (samplePorts (presenting resetPort keyed)).rst = true ∧ ¬(presenting resetPort keyed).LooksLike (presenting resetPort unkeyed) ∧
    (nextOf (step (presenting resetPort keyed))).isSome = true ∧ (nextOf (step (presenting resetPort unkeyed))).isSome = true := by
  decide
theorem witness_StatusByteLayout : keyed.err ≠ 0b11#2 := by decide
theorem witness_ForbiddenReadsFault : ({ keyed with err := 0b11#2 } : State).err = 0b11#2 := by decide
theorem witness_BootThenEncrypt : parseKey "1111111111".toList = .key 0x3FF#10 ∧
    (∀ p rest, [HostAction.readStatus] = .drive p :: rest → p.rst = false) ∧
    (∀ p rest, [HostAction.drive idlePort] = .drive p :: rest → p.rst = false) := by
  refine ⟨by decide, fun p rest h => ?_, fun p rest h => ?_⟩
  · cases h
  · cases h
    rfl
theorem witness_DecodeIsTotal : (0x7FF#12).extractLsb' 10 2 = 0b01#2 ∧
    ((0x800#12).extractLsb' 10 2 = 0b10#2 ∧ (0x800#12).extractLsb' 8 2 = 0b00#2) ∧
    ((0xCFF#12).extractLsb' 10 2 = 0b11#2 ∧ (0xCFF#12).extractLsb' 8 2 = 0b00#2) ∧
    ((0x900#12).extractLsb' 10 2 ≠ 0b01#2 ∧ ¬(((0x900#12).extractLsb' 10 2 = 0b10#2 ∨
      (0x900#12).extractLsb' 10 2 = 0b11#2) ∧ (0x900#12).extractLsb' 8 2 = 0b00#2)) := by decide
theorem witness_RotationMovesSequencePositions : (3 : Nat) < 5 ∧ (0 : Nat) < 1 := by decide
theorem witness_KeyHalvesRotateIndependently : (4 : Nat) < 5 := by decide
theorem witness_RoundKeyPairIsInjective : deriveRoundKeys 0x000#10 = deriveRoundKeys 0x000#10 ∧
    deriveK1 0x3FF#10 = deriveK2 0x3FF#10 ∧ (nextOf (exec (.loadkey 0x3FF#10) unkeyed)).isSome = true := by decide
theorem witness_BlockPermutationsWiring : expandHalf 0xF#4 = expandHalf 0xF#4 := by decide
/-- Each conditional clause of SubstituteReadsTheSelectedCells: the model's tables meet its assumptions on the cells. -/
theorem witness_SubstituteReadsTheSelectedCells :
    ((sboxes.s0.get 0).get 0 = 1#2 ∧ (sboxes.s1.get 0).get 0 = 0#2) ∧
    ((sboxes.s0.get 3).get 3 = 2#2 ∧ (sboxes.s1.get 3).get 3 = 3#2) ∧
    ((sboxes.s0.get 1).get 3 = 0#2 ∧ (sboxes.s1.get 2).get 3 = 0#2) := by decide
/-- Two different pairs with the same keyed expansion. -/
theorem witness_MixDependsOnKeyedExpansion :
    xorBits (expandHalf 0x0#4) 0x00#8 = xorBits (expandHalf 0xF#4) 0xFF#8 := by decide
theorem witness_ParseKeyIsStrict : parseKey "0b10100000".toList = .invalidKeyError ∧
    parseKey "0000000000".toList = .key 0x000#10 := by decide

end Sys2Proof.Tests
end

section
/-!
SUPPORT. Rotation (00_scope.md R12): `rol` is the library's `BitVec.rotateLeft`, in sequence positions and in
register bits.
-/

namespace Sys2Proof.Machine

/-- Sequence positions count from the most significant bit (R9), as the library's `getMsbD` does. -/
theorem seq_eq_getMsbD {n : Nat} (v : BitVec n) (i : Fin n) : seq v i = v.getMsbD i.val := by
  simp [seq, BitVec.getMsbD_eq_getLsbD]

/-- Below the width, `rol` is the library's rotation. -/
theorem rol_eq_rotateLeft {w s : Nat} (v : BitVec w) (h : s < w) : rol v s = v.rotateLeft s :=
  (BitVec.rotateLeft_eq_rotateLeftAux_of_lt h).symm

/-- R12 in sequence positions: the result's position `i` comes from `s` positions further on, cyclically. -/
theorem seq_rol {w s : Nat} (v : BitVec w) (h : s < w) (i : Fin w) :
    seq (rol v s) i = seq v ⟨(i.val + s) % w, Nat.mod_lt _ (Nat.zero_lt_of_lt h)⟩ := by
  rw [rol_eq_rotateLeft v h, seq_eq_getMsbD, seq_eq_getMsbD, BitVec.getMsbD_rotateLeft_of_lt h, Nat.add_comm s]
  simp

/-- R12 in register bits. Only the bits shifted out to the left are cut: a right shift stays within the width. -/
theorem toNat_rol {w : Nat} (v : BitVec w) (s : Nat) :
    (rol v s).toNat = ((v.toNat <<< s) ||| (v.toNat >>> (w - s))) % 2 ^ w := by
  have hright : v.toNat >>> (w - s) < 2 ^ w := Nat.lt_of_le_of_lt (Nat.shiftRight_le _ _) v.isLt
  rw [rol, BitVec.toNat_or, BitVec.toNat_shiftLeft, BitVec.toNat_ushiftRight, Nat.or_mod_two_pow,
    Nat.mod_eq_of_lt hright]

/-- Settles O35: the sequence-position form is the library's rotation law, the register-bit form holds by `toNat`. -/
theorem rotationMovesSequencePositions : Obligations.RotationMovesSequencePositions :=
  fun _ v s h => ⟨seq_rol v h, toNat_rol v s⟩

end Sys2Proof.Machine
end

section
/-!
SUPPORT. What one whole step can do: its seven kinds, flattened once from the laws of the ports, of `execute` and of
`exec`, so that a statement about any step is one case analysis over them.
-/

namespace Sys2Proof.Machine

/-- The kinds of step from `s`, each with what it asks of the ports, of the command word and of KV, and with the state it
answers. -/
inductive StepKind (s : State) : State → Prop where
  | reset (hrst : (samplePorts s).rst = true) : StepKind s (resetCore (consumePorts s))
  | loadkey (k : Key) (hrst : (samplePorts s).rst = false) (hvalid : (samplePorts s).cmdValid = true)
      (hword : decode (samplePorts s).cmd = .command (.loadkey k)) :
      StepKind s (installKey k (deriveRoundKeys k) (consumePorts s))
  | enc (b : Block) (hrst : (samplePorts s).rst = false) (hvalid : (samplePorts s).cmdValid = true)
      (hword : decode (samplePorts s).cmd = .command (.enc b)) (hkey : s.kv = true) :
      StepKind s (deliverBlock (encryptBlock sboxes b s.k1 s.k2) (consumePorts s))
  | dec (b : Block) (hrst : (samplePorts s).rst = false) (hvalid : (samplePorts s).cmdValid = true)
      (hword : decode (samplePorts s).cmd = .command (.dec b)) (hkey : s.kv = true) :
      StepKind s (deliverBlock (decryptBlock sboxes b s.k1 s.k2) (consumePorts s))
  | noKey (b : Block) (hrst : (samplePorts s).rst = false) (hvalid : (samplePorts s).cmdValid = true)
      (hword : decode (samplePorts s).cmd = .command (.enc b) ∨ decode (samplePorts s).cmd = .command (.dec b))
      (hkey : s.kv = false) : StepKind s (raiseError .noKey (consumePorts s))
  | illegal (why : IllegalReason) (hrst : (samplePorts s).rst = false) (hvalid : (samplePorts s).cmdValid = true)
      (hword : decode (samplePorts s).cmd = .illegal why) : StepKind s (raiseError .illegal (consumePorts s))
  | idle (hrst : (samplePorts s).rst = false) (hvalid : (samplePorts s).cmdValid = false) :
      StepKind s (consumePorts s)

/-- Every step is of one of the seven kinds (70 R194). -/
theorem stepKind_of_step {s t : State} (h : step s = .next t) : StepKind s t := by
  rw [step_eq] at h
  obtain ⟨hrst, rfl⟩ | ⟨hrst, hvalid, hexecute⟩ | ⟨hrst, hvalid, rfl⟩ := stepPort_cases h
  · exact .reset hrst
  · obtain ⟨i, hword, hexec⟩ | ⟨why, hword, rfl⟩ := execute_cases hexecute
    · obtain ⟨k, rfl, rfl⟩ | ⟨b, rfl, hkey, rfl⟩ | ⟨b, rfl, hkey, rfl⟩ | ⟨⟨b, hi⟩, hkey, rfl⟩ := exec_cases hexec
      · exact .loadkey k hrst hvalid hword
      · exact .enc b hrst hvalid hword hkey
      · exact .dec b hrst hvalid hword hkey
      · refine .noKey b hrst hvalid ?_ hkey
        rwa [hword, Decoded.command.injEq, Decoded.command.injEq]
    · exact .illegal why hrst hvalid hword
  · exact .idle hrst hvalid

end Sys2Proof.Machine
end

section
/-!
SUPPORT. The invariant (10_state.md R26, R27, R31; 60_exceptions.md R173), operation by operation and then step by step.
-/

namespace Sys2Proof.Machine

theorem errCode_eq_noKey_iff (e : ErrCode) : errCode e = errCode .noKey ↔ e = .noKey := by
  cases e <;> decide

/-- The value 3 is no outcome's code (R170). -/
theorem errCode_ne_unassigned (e : ErrCode) : errCode e ≠ 0b11#2 := by
  cases e <;> decide

/-- The invariant speaks of registers only, and consuming the port values changes none. -/
theorem consumePorts_inv {s : State} (h : s.Inv) : (consumePorts s).Inv := h

/-- Reset clears all three flags, so every clause holds of it whatever is drawn (70 R190). -/
theorem resetCore_inv (s : State) : (resetCore s).Inv :=
  ⟨nofun, nofun, fun _ => rfl, errCode_ne_unassigned .ok⟩

/-- LOADKEY restores the cache whatever was there before (R31). -/
theorem installKey_inv (k : Key) (s : State) : (installKey k (deriveRoundKeys k) s).Inv :=
  ⟨fun _ => rfl, nofun, fun h => (nomatch (errCode_eq_noKey_iff .ok).1 h), errCode_ne_unassigned .ok⟩

/-- With a key, a delivered result touches neither the keys nor KV, so the cache is as before. -/
theorem deliverBlock_inv (d : Block) {s : State} (hcache : s.CacheInv) (hkey : s.kv = true) :
    (deliverBlock d s).Inv :=
  ⟨hcache, fun _ => ⟨hkey, rfl⟩, fun h => (nomatch (errCode_eq_noKey_iff .ok).1 h), errCode_ne_unassigned .ok⟩

/-- An error leaves the cache and gives up the result; NO_KEY may be raised only without a key (R173). -/
theorem raiseError_inv (e : ErrCode) {s : State} (hcache : s.CacheInv) (hkey : e = .noKey → s.kv = false) :
    (raiseError e s).Inv :=
  ⟨hcache, nofun, fun h => hkey ((errCode_eq_noKey_iff e).1 h), errCode_ne_unassigned e⟩

theorem StepKind.keeps_inv {s t : State} (hinv : s.Inv) (h : StepKind s t) : t.Inv := by
  obtain ⟨hcache, -⟩ := consumePorts_inv hinv
  cases h with
  | reset => exact resetCore_inv _
  | loadkey k => exact installKey_inv k _
  | enc b _ _ _ hkey => exact deliverBlock_inv _ hcache hkey
  | dec b _ _ _ hkey => exact deliverBlock_inv _ hcache hkey
  | noKey b _ _ _ hkey => exact raiseError_inv _ hcache fun _ => hkey
  | illegal => exact raiseError_inv _ hcache nofun
  | idle => exact consumePorts_inv hinv

/-- Settles O21: every operation that a step can end with keeps the invariant. -/
theorem everyStepKeepsTheInvariant : Obligations.EveryStepKeepsTheInvariant :=
  fun _ _ hinv h => (stepKind_of_step h).keeps_inv hinv

end Sys2Proof.Machine
end

section
/-!
SUPPORT. The STATUS byte field by field, and the host's reads (10_state.md R26, R28, R32).
-/

namespace Sys2Proof.Machine

theorem statusOf_kv (s : State) : (statusOf s).getLsbD 0 = s.kv := by
  rw [statusOf, BitVec.getLsbD_append]
  simp

theorem statusOf_dv (s : State) : (statusOf s).getLsbD 1 = s.dv := by
  rw [statusOf, BitVec.getLsbD_append, if_neg (by decide), BitVec.getLsbD_append]
  simp

/-- Above the two flag bits, STATUS is `0b0000 || ERR`. -/
theorem statusOf_extract_above_flags (s : State) {start : Nat} (len : Nat) (h : 2 ≤ start) :
    (statusOf s).extractLsb' start len = (0b0000#4 ++ s.err).extractLsb' (start - 2) len := by
  rw [statusOf, BitVec.extractLsb'_append_eq_of_le (by omega), BitVec.extractLsb'_append_eq_of_le (by omega),
    Nat.sub_sub]

@[simp] theorem statusOf_err (s : State) : (statusOf s).extractLsb' 2 2 = s.err := by
  rw [statusOf_extract_above_flags s 2 (by decide)]
  exact BitVec.extractLsb'_append_eq_right

@[simp] theorem statusOf_high (s : State) : (statusOf s).extractLsb' 4 4 = 0b0000#4 := by
  rw [statusOf_extract_above_flags s 4 (by decide)]
  exact BitVec.extractLsb'_append_eq_left

theorem readStatus_of_legal {s : State} (h : s.err ≠ 0b11#2) : readStatus s = .next (statusOf s) := if_neg h

theorem readStatus_of_unassigned {s : State} (h : s.err = 0b11#2) : readStatus s = .fault .errCodeUnassigned :=
  if_pos h

theorem readDout_valid {s : State} (h : s.dv = true) : readDout s = .next s.dout := if_pos h

theorem readDout_not_valid {s : State} (h : s.dv = false) : readDout s = .fault .doutNotValid := by
  simp [readDout, h]

/-- Settles O26: STATUS field by field, and a read while ERR is a legal value. -/
theorem statusByteLayout : Obligations.StatusByteLayout :=
  fun s => ⟨statusOf_kv s, statusOf_dv s, statusOf_err s, statusOf_high s, readStatus_of_legal⟩

/-- Settles O27: no key register has a read path, and ERR = 3 is no valid status. -/
theorem forbiddenReadsFault : Obligations.ForbiddenReadsFault :=
  fun _ => ⟨fun _ => rfl, readStatus_of_unassigned⟩

end Sys2Proof.Machine
end

section
/-!
SUPPORT. What each register holds after a step of any kind (10_state.md R21 to R27, 60_exceptions.md R174).
-/

namespace Sys2Proof.Machine

/-- Settles O16: only a reset and a LOADKEY write KV. -/
theorem keyValidAfterAnyStep : Obligations.KeyValidAfterAnyStep := by
  intro s t h
  cases stepKind_of_step h with
  | reset hrst => simp [hrst]
  | loadkey k hrst hvalid hword => simp [hrst, hvalid, hword]
  | enc b hrst hvalid hword => simp [hrst, hvalid, hword]
  | dec b hrst hvalid hword => simp [hrst, hvalid, hword]
  | noKey b hrst hvalid hword => obtain hword | hword := hword <;> simp [hrst, hvalid, hword]
  | illegal why hrst hvalid hword => simp [hrst, hvalid, hword]
  | idle hrst hvalid => simp [hrst, hvalid]

/-- Settles O17: only the two kinds of step that deliver a result set DV, and the host sees DV as R26 says. -/
theorem dataValidAfterAnyStep : Obligations.DataValidAfterAnyStep := by
  refine ⟨fun s t h => ?_, fun s => ⟨readDout_not_valid, readDout_valid, statusOf_dv s⟩, reset_dv⟩
  cases stepKind_of_step h with
  | reset hrst => simp [hrst]
  | loadkey k hrst hvalid hword => simp [hrst, hvalid, hword]
  | enc b hrst hvalid hword hkey => simp [hrst, hvalid, hword, hkey]
  | dec b hrst hvalid hword hkey => simp [hrst, hvalid, hword, hkey]
  | noKey b hrst hvalid hword hkey => simp [hrst, hvalid, hkey]
  | illegal why hrst hvalid hword => simp [hrst, hvalid, hword]
  | idle hrst hvalid => simp [hrst, hvalid]

/-- Settles O18: ERR by the kind of step; only an idle step can leave a value other than the three codes. -/
theorem errorFieldAfterAnyStep : Obligations.ErrorFieldAfterAnyStep := by
  refine ⟨fun s t h => ?_, statusOf_err, reset_err⟩
  cases stepKind_of_step h with
  | reset hrst => simp [hrst]
  | loadkey k hrst hvalid hword => simp [hrst, hvalid, hword]
  | enc b hrst hvalid hword hkey => simp [hrst, hvalid, hword, hkey]
  | dec b hrst hvalid hword hkey => simp [hrst, hvalid, hword, hkey]
  | noKey b hrst hvalid hword hkey => obtain hword | hword := hword <;> simp [hrst, hvalid, hword, hkey, errCode]
  | illegal why hrst hvalid hword => simp [hrst, hvalid, hword, errCode]
  | idle hrst hvalid => simp [hrst, hvalid]

/-- Settles O19: of the steps that are no reset, only the two that deliver a result write DOUT. -/
theorem dataOutChangesOnlyByEncDec : Obligations.DataOutChangesOnlyByEncDec := by
  intro s t h hnorst hchange
  cases stepKind_of_step h with
  | reset hrst => exact absurd hrst (by simp [hnorst])
  | enc b _ hvalid hword hkey => exact ⟨hvalid, hkey, b, .inl hword⟩
  | dec b _ hvalid hword hkey => exact ⟨hvalid, hkey, b, .inr hword⟩
  | loadkey | noKey | illegal | idle => exact absurd rfl hchange

/-- Settles O20: of the steps that are no reset, only a LOADKEY writes MK, K1 and K2, and it writes all three. -/
theorem keyRegistersChangeOnlyByLoadkey : Obligations.KeyRegistersChangeOnlyByLoadkey := by
  intro s t h hnorst
  cases stepKind_of_step h with
  | reset hrst => exact absurd hrst (by simp [hnorst])
  | loadkey k _ hvalid hword => exact .inr ⟨k, hvalid, hword, rfl, rfl, rfl⟩
  | enc | dec | noKey | illegal | idle => exact .inl ⟨rfl, rfl, rfl⟩

end Sys2Proof.Machine
end

section
/-!
SUPPORT. Byte order (20_memory.md R41): after `n` bits of a byte's sequence have been shifted in, the register holds the
byte's top `n` bits.
-/

namespace Sys2Proof.Machine

theorem byteSeq_getElem? (b : BitVec 8) (i : Fin 8) : (byteSeq b)[i.val]? = some (b.getLsbD (7 - i.val)) := by
  simp [byteSeq, seq]

theorem shiftIn_concat (bits : List Bool) (x : Bool) :
    shiftIn (bits ++ [x]) = shiftIn bits <<< 1 ||| (BitVec.ofBool x).zeroExtend 8 := by
  rw [shiftIn, List.foldl_append]
  rfl

/-- Shifting bit `j` in below the bits above it gives the bits from `j` upwards. -/
theorem ushiftRight_succ_shiftIn_bit (b : BitVec 8) (j : Nat) :
    (b >>> (j + 1)) <<< 1 ||| (BitVec.ofBool (b.getLsbD j)).zeroExtend 8 = b >>> j := by
  apply BitVec.eq_of_getLsbD_eq
  intro i hi
  cases i with
  | zero => simp
  | succ i => simp [hi, Nat.add_assoc, Nat.add_comm 1 i]

theorem shiftIn_take_byteSeq (b : BitVec 8) {n : Nat} (h : n ≤ 8) : shiftIn ((byteSeq b).take n) = b >>> (8 - n) := by
  induction n with
  | zero => exact (BitVec.ushiftRight_eq_zero (Nat.le_refl 8)).symm
  | succ n ih =>
    have hbefore : 8 - n = 7 - n + 1 := by omega
    have hafter : 8 - (n + 1) = 7 - n := by omega
    rw [hafter, List.take_add_one, byteSeq_getElem? b ⟨n, h⟩, Option.toList_some, shiftIn_concat,
      ih (Nat.le_of_succ_le h), hbefore, ushiftRight_succ_shiftIn_bit]

theorem shiftIn_byteSeq (b : BitVec 8) : shiftIn (byteSeq b) = b := by
  have hlength : (byteSeq b).length = 8 := by simp [byteSeq]
  have hall := shiftIn_take_byteSeq b (Nat.le_refl 8)
  rwa [List.take_of_length_le (Nat.le_of_eq hlength), Nat.sub_self, BitVec.ushiftRight_zero] at hall

theorem seq_blockField (w : CmdWord) (i : Fin 8) : seq (blockField w) i = w.getLsbD (7 - i.val) := by
  have hlt : 7 - i.val < 8 := by omega
  simp [seq, blockField, hlt]

/-- Settles O34: the sequence read off a byte, shifted back in, and read off a command word's operand. -/
theorem byteOrderIsMsbFirst : Obligations.ByteOrderIsMsbFirst :=
  ⟨byteSeq_getElem?, shiftIn_byteSeq, seq_blockField⟩

end Sys2Proof.Machine
end

section
/-!
SUPPORT. Decoding what was encoded (30_encoding.md R54, R56).
-/

namespace Sys2Proof

/-- Each field of an encoded command is the part of the append that R50 places there, so R54's tests pick its row. -/
theorem decode_encode (i : Instr) : decode (encode i) = .command i := by
  cases i with
  | loadkey k =>
    have hop : opField (encode (.loadkey k)) = 0b01#2 := BitVec.extractLsb'_append_eq_left
    have harg : argField (encode (.loadkey k)) = k := BitVec.extractLsb'_append_eq_right
    rw [decode, if_pos hop, harg]
  | enc b =>
    have hop : opField (encode (.enc b)) = 0b10#2 := BitVec.extractLsb'_append_eq_of_le (by decide)
    have hreserved : reservedField (encode (.enc b)) = 0b00#2 := BitVec.extractLsb'_append_eq_of_le (by decide)
    have hblock : blockField (encode (.enc b)) = b := BitVec.extractLsb'_append_eq_right
    simp [decode, hop, hreserved, hblock]
  | dec b =>
    have hop : opField (encode (.dec b)) = 0b11#2 := BitVec.extractLsb'_append_eq_of_le (by decide)
    have hreserved : reservedField (encode (.dec b)) = 0b00#2 := BitVec.extractLsb'_append_eq_of_le (by decide)
    have hblock : blockField (encode (.dec b)) = b := BitVec.extractLsb'_append_eq_right
    simp [decode, hop, hreserved, hblock]

end Sys2Proof
end

section
/-!
SUPPORT. Commands in consecutive steps (20_memory.md R46, 70_reset_and_hazards.md R198): each runs on what the one
before it left.
-/

namespace Sys2Proof.Machine

/-- A run goes on from the state that its first step answers. -/
theorem run_succ_of_step {M : Host.Core} {s t : M.State} (h : M.step s = .next t) (n : Nat) :
    M.run (n + 1) s = M.run n t := by
  rw [Host.Core.run, h]

/-- A command presented as its own encoding is the command that the step runs. -/
theorem step_of_encoded {s : State} {i : Instr} {rest : List PortIn} (h : s.inputs = commandPort (encode i) :: rest) :
    step s = exec i (consumePorts s) := by
  rw [step_eq, samplePorts_cons h, stepPort_commandPort, execute_of_decode (decode_encode i)]

theorem exec_enc_keyed (b : Block) {s : State} (h : s.kv = true) :
    exec (.enc b) s = .next (deliverBlock (encryptBlock sboxes b s.k1 s.k2) s) := deliverIfKeyed_keyed _ h

theorem exec_dec_keyed (b : Block) {s : State} (h : s.kv = true) :
    exec (.dec b) s = .next (deliverBlock (decryptBlock sboxes b s.k1 s.k2) s) := deliverIfKeyed_keyed _ h

/-- A command that, with a key, delivers `result K1 K2` delivers it of the new round keys in the step right after a
LOADKEY: that step has already written K1, K2 and KV. -/
theorem run_loadkey_then_deliver {k : Key} {i : Instr} {s : State} {rest : List PortIn}
    (result : RoundKey → RoundKey → Block)
    (hexec : ∀ {u : State}, u.kv = true → exec i u = .next (deliverBlock (result u.k1 u.k2) u))
    (hinputs : s.inputs = commandPort (encode (.loadkey k)) :: commandPort (encode i) :: rest) :
    ∃ t : State, core.run 2 s = .next t ∧ t.dv = true ∧ t.err = 0b00#2 ∧ t.masterKey = k ∧ t.inputs = rest ∧
      t.dout = result (deriveK1 k) (deriveK2 k) := by
  have hload : step s = .next (installKey k (deriveRoundKeys k) (consumePorts s)) := step_of_encoded hinputs
  have hnext : (installKey k (deriveRoundKeys k) (consumePorts s)).inputs = commandPort (encode i) :: rest := by
    simp [hinputs]
  have hdeliver := (step_of_encoded hnext).trans (hexec rfl)
  have hrun := (run_succ_of_step (M := core) hload 1).trans (run_succ_of_step (M := core) hdeliver 0)
  exact ⟨_, hrun, rfl, rfl, rfl, by simp [hinputs], rfl⟩

/-- Settles O14: ENC and DEC are two commands that deliver a result of the round keys. -/
theorem nextStepSeesTheNewKey : Obligations.NextStepSeesTheNewKey :=
  fun _ b _ _ => ⟨run_loadkey_then_deliver (encryptBlock sboxes b) (exec_enc_keyed b),
    run_loadkey_then_deliver (decryptBlock sboxes b) (exec_dec_keyed b)⟩

end Sys2Proof.Machine
end

section
/-!
SUPPORT. `decode` row by row (30_encoding.md R54), and that it is the inverse of `encode` (R56).
-/

namespace Sys2Proof

variable {w : CmdWord}

theorem decode_of_op_loadkey (hop : opField w = 0b01#2) : decode w = .command (.loadkey (argField w)) := if_pos hop

theorem decode_of_op_enc (hop : opField w = 0b10#2) (hreserved : reservedField w = 0b00#2) :
    decode w = .command (.enc (blockField w)) := by
  simp [decode, hop, hreserved]

theorem decode_of_op_dec (hop : opField w = 0b11#2) (hreserved : reservedField w = 0b00#2) :
    decode w = .command (.dec (blockField w)) := by
  simp [decode, hop, hreserved]

theorem decode_of_op_zero (hop : opField w = 0b00#2) : decode w = .illegal .opZero := by
  simp [decode, hop]

theorem decode_of_reserved_ne_zero (hop : opField w = 0b10#2 ∨ opField w = 0b11#2)
    (hreserved : reservedField w ≠ 0b00#2) : decode w = .illegal .reservedBits := by
  obtain hop | hop := hop <;> simp [decode, hop, hreserved]

/-- A word is on exactly one row, and what it decodes to is that row's (R54, R55). -/
theorem decode_cases (w : CmdWord) :
    (opField w = 0b01#2 ∧ decode w = .command (.loadkey (argField w))) ∨
    (opField w = 0b10#2 ∧ reservedField w = 0b00#2 ∧ decode w = .command (.enc (blockField w))) ∨
    (opField w = 0b11#2 ∧ reservedField w = 0b00#2 ∧ decode w = .command (.dec (blockField w))) ∨
    (opField w = 0b00#2 ∧ decode w = .illegal .opZero) ∨
    ((opField w = 0b10#2 ∨ opField w = 0b11#2) ∧ reservedField w ≠ 0b00#2 ∧ decode w = .illegal .reservedBits) := by
  have hops : ∀ op : BitVec 2, op = 0b00#2 ∨ op = 0b01#2 ∨ op = 0b10#2 ∨ op = 0b11#2 := by decide
  obtain hop | hop | hop | hop := hops (opField w)
  · exact .inr (.inr (.inr (.inl ⟨hop, decode_of_op_zero hop⟩)))
  · exact .inl ⟨hop, decode_of_op_loadkey hop⟩
  · by_cases hreserved : reservedField w = 0b00#2
    · exact .inr (.inl ⟨hop, hreserved, decode_of_op_enc hop hreserved⟩)
    · exact .inr (.inr (.inr (.inr ⟨.inl hop, hreserved, decode_of_reserved_ne_zero (.inl hop) hreserved⟩)))
  · by_cases hreserved : reservedField w = 0b00#2
    · exact .inr (.inr (.inl ⟨hop, hreserved, decode_of_op_dec hop hreserved⟩))
    · exact .inr (.inr (.inr (.inr ⟨.inr hop, hreserved, decode_of_reserved_ne_zero (.inr hop) hreserved⟩)))

/-- A word is its `op` and `arg` fields (R50). -/
theorem opField_append_argField (w : CmdWord) : opField w ++ argField w = w :=
  (BitVec.extractLsb'_append_extractLsb'_eq_extractLsb' rfl).trans BitVec.extractLsb'_eq_self

/-- ENC and DEC cut `arg` into reserved bits and block (R53). -/
theorem opField_append_reservedField_append_blockField (w : CmdWord) :
    opField w ++ reservedField w ++ blockField w = w := by
  have hhigh : opField w ++ reservedField w = w.extractLsb' 8 4 :=
    BitVec.extractLsb'_append_extractLsb'_eq_extractLsb' rfl
  rw [hhigh]
  exact (BitVec.extractLsb'_append_extractLsb'_eq_extractLsb' rfl).trans BitVec.extractLsb'_eq_self

/-- On a command's row the fields that `encode` does not take from the operand have the values that it writes. -/
theorem encode_of_decode {i : Instr} (h : decode w = .command i) : encode i = w := by
  obtain ⟨hop, hdec⟩ | ⟨hop, hreserved, hdec⟩ | ⟨hop, hreserved, hdec⟩ | ⟨-, hdec⟩ | ⟨-, -, hdec⟩ := decode_cases w
  · obtain rfl := Decoded.command.inj (hdec.symm.trans h)
    rw [encode, ← hop, opField_append_argField]
  · obtain rfl := Decoded.command.inj (hdec.symm.trans h)
    rw [encode, ← hop, ← hreserved, opField_append_reservedField_append_blockField]
  · obtain rfl := Decoded.command.inj (hdec.symm.trans h)
    rw [encode, ← hop, ← hreserved, opField_append_reservedField_append_blockField]
  · exact nomatch hdec.symm.trans h
  · exact nomatch hdec.symm.trans h

theorem decode_eq_command_iff {i : Instr} : decode w = .command i ↔ w = encode i :=
  ⟨fun h => (encode_of_decode h).symm, fun h => h ▸ decode_encode i⟩

end Sys2Proof

namespace Sys2Proof.Machine

/-- Settles O29: the two round trips. -/
theorem decodeInvertsEncode : Obligations.DecodeInvertsEncode := fun _ _ => decode_eq_command_iff

/-- Settles O30: R54's rows, where a word that is on no command's row is on one of the two illegal ones. -/
theorem decodeIsTotal : Obligations.DecodeIsTotal := by
  refine fun w => ⟨decode_of_op_loadkey, decode_of_op_enc, decode_of_op_dec, fun hload hblock => ?_⟩
  obtain ⟨hop, -⟩ | ⟨hop, hreserved, -⟩ | ⟨hop, hreserved, -⟩ | ⟨-, hdec⟩ | ⟨-, -, hdec⟩ := decode_cases w
  · exact absurd hop hload
  · exact absurd ⟨.inl hop, hreserved⟩ hblock
  · exact absurd ⟨.inr hop, hreserved⟩ hblock
  · exact ⟨_, hdec⟩
  · exact ⟨_, hdec⟩

/-- Settles O32: the three command words are encodings, and the others show R54's illegal fields. -/
theorem writtenOutWordsDecode : Obligations.WrittenOutWordsDecode :=
  ⟨decode_eq_command_iff.2 rfl, decode_eq_command_iff.2 rfl, decode_eq_command_iff.2 rfl, decode_of_op_zero rfl,
    decode_of_reserved_ne_zero (.inl rfl) (by decide), decode_of_reserved_ne_zero (.inr rfl) (by decide)⟩

end Sys2Proof.Machine
end

section
/-!
SUPPORT. The encoding space as a range of numbers (30_encoding.md R55): one run of numbers for each row, and two for the
words with reserved bits set.
-/

namespace Sys2Proof

/-- High bits above a numeral that fits the low ones, as one number. -/
theorem append_ofNat_of_lt {m n k : Nat} (a : BitVec m) (h : k < 2 ^ n) :
    a ++ BitVec.ofNat n k = BitVec.ofNat (m + n) (a.toNat * 2 ^ n + k) := by
  apply BitVec.eq_of_toNat_eq
  have hfits : (a ++ BitVec.ofNat n k).toNat = a.toNat * 2 ^ n + k := by
    rw [BitVec.toNat_append, BitVec.toNat_ofNat, Nat.mod_eq_of_lt h, ← Nat.shiftLeft_add_eq_or_of_lt h,
      Nat.shiftLeft_eq]
  rw [BitVec.toNat_ofNat, ← hfits, Nat.mod_eq_of_lt (BitVec.isLt _)]

theorem decode_loadkey_number {k : Nat} (h : k < 1024) :
    decode (BitVec.ofNat 12 (1024 + k)) = .command (.loadkey (BitVec.ofNat 10 k)) :=
  decode_eq_command_iff.2 (append_ofNat_of_lt (n := 10) 0b01#2 h).symm

theorem decode_enc_number {b : Nat} (h : b < 256) :
    decode (BitVec.ofNat 12 (2048 + b)) = .command (.enc (BitVec.ofNat 8 b)) :=
  decode_eq_command_iff.2 (append_ofNat_of_lt (n := 8) 0b1000#4 h).symm

theorem decode_dec_number {b : Nat} (h : b < 256) :
    decode (BitVec.ofNat 12 (3072 + b)) = .command (.dec (BitVec.ofNat 8 b)) :=
  decode_eq_command_iff.2 (append_ofNat_of_lt (n := 8) 0b1100#4 h).symm

theorem opField_ofNat (n : Nat) : opField (BitVec.ofNat 12 n) = BitVec.ofNat 2 (n / 1024) := by
  apply BitVec.eq_of_toNat_eq
  simp [opField]
  omega

theorem reservedField_ofNat (n : Nat) : reservedField (BitVec.ofNat 12 n) = BitVec.ofNat 2 (n / 256) := by
  apply BitVec.eq_of_toNat_eq
  simp [reservedField]
  omega

theorem decode_opZero_number {n : Nat} (h : n < 1024) : decode (BitVec.ofNat 12 n) = .illegal .opZero := by
  apply decode_of_op_zero
  rw [opField_ofNat, Nat.div_eq_of_lt h]

theorem decode_reservedBits_number {n : Nat} (hop : n / 1024 = 2 ∨ n / 1024 = 3) (hreserved : n / 256 % 4 ≠ 0) :
    decode (BitVec.ofNat 12 n) = .illegal .reservedBits := by
  apply decode_of_reserved_ne_zero
  · rw [opField_ofNat]
    exact hop.imp (congrArg (BitVec.ofNat 2)) (congrArg (BitVec.ofNat 2))
  · rw [reservedField_ofNat]
    exact fun h => hreserved (congrArg BitVec.toNat h)

/-- A range of numbers mapped up to `start`, and then one more run of `len` numbers. -/
theorem map_range_eq_append {α : Type} {f row : Nat → α} {rows : List α} {start len : Nat}
    (hbelow : (List.range start).map f = rows) (hrow : ∀ k < len, f (start + k) = row k) :
    (List.range (start + len)).map f = rows ++ (List.range len).map row := by
  rw [List.range_add, List.map_append, List.map_map, hbelow]
  exact congrArg (rows ++ ·) (List.map_congr_left fun k hk => hrow k (List.mem_range.1 hk))

/-- What the 4096 words decode to, in the order of their numbers. -/
theorem map_decode_range : (List.range 4096).map (fun n => decode (BitVec.ofNat 12 n)) =
    (List.range 1024).map (fun _ => .illegal .opZero) ++
    (List.range 1024).map (fun k => .command (.loadkey (BitVec.ofNat 10 k))) ++
    (List.range 256).map (fun b => .command (.enc (BitVec.ofNat 8 b))) ++
    (List.range 768).map (fun _ => .illegal .reservedBits) ++
    (List.range 256).map (fun b => .command (.dec (BitVec.ofNat 8 b))) ++
    (List.range 768).map (fun _ => .illegal .reservedBits) := by
  refine map_range_eq_append (start := 3328) (len := 768) ?_ fun _ _ => decode_reservedBits_number (by omega) (by omega)
  refine map_range_eq_append (start := 3072) (len := 256) ?_ fun _ => decode_dec_number
  refine map_range_eq_append (start := 2304) (len := 768) ?_ fun _ _ => decode_reservedBits_number (by omega) (by omega)
  refine map_range_eq_append (start := 2048) (len := 256) ?_ fun _ => decode_enc_number
  refine map_range_eq_append (start := 1024) (len := 1024) ?_ fun _ => decode_loadkey_number
  exact List.map_congr_left fun _ hn => decode_opZero_number (List.mem_range.1 hn)

/-- Words are counted row by row. -/
theorem countP_decode_range (p : Decoded → Bool) :
    (List.range 4096).countP (fun n => p (decode (BitVec.ofNat 12 n))) =
      (List.range 1024).countP (fun _ => p (.illegal .opZero)) +
      (List.range 1024).countP (fun k => p (.command (.loadkey (BitVec.ofNat 10 k)))) +
      (List.range 256).countP (fun b => p (.command (.enc (BitVec.ofNat 8 b)))) +
      (List.range 768).countP (fun _ => p (.illegal .reservedBits)) +
      (List.range 256).countP (fun b => p (.command (.dec (BitVec.ofNat 8 b)))) +
      (List.range 768).countP (fun _ => p (.illegal .reservedBits)) := by
  have hmap := List.countP_map (p := p) (f := fun n => decode (BitVec.ofNat 12 n)) (l := List.range 4096)
  simp only [map_decode_range, List.countP_append, List.countP_map] at hmap
  exact hmap.symm

/-- The class of LOADKEY, with any operand. -/
def Decoded.isLoadkey : Decoded → Bool
  | .command (.loadkey _) => true
  | _ => false

/-- The class of ENC, with any operand. -/
def Decoded.isEnc : Decoded → Bool
  | .command (.enc _) => true
  | _ => false

/-- The class of DEC, with any operand. -/
def Decoded.isDec : Decoded → Bool
  | .command (.dec _) => true
  | _ => false

end Sys2Proof

namespace Sys2Proof.Machine

/-- Settles O31: a class holds all the words of its rows and none of another row. -/
theorem encodingSpaceCounts : Obligations.EncodingSpaceCounts := by
  refine ⟨(countP_decode_range Decoded.isLoadkey).trans ?_, (countP_decode_range Decoded.isEnc).trans ?_,
    (countP_decode_range Decoded.isDec).trans ?_, (countP_decode_range (· = .illegal .opZero)).trans ?_,
    (countP_decode_range (· = .illegal .reservedBits)).trans ?_⟩
  · simp [Decoded.isLoadkey]
  · simp [Decoded.isEnc]
  · simp [Decoded.isDec]
  · simp
  · simp

end Sys2Proof.Machine
end

section
/-!
SUPPORT. The assembler (30_encoding.md R56): a numeral that fits the operand, and one that does not.
-/

namespace Sys2Proof.Machine

/-- A line assembles to its command's encoding exactly if it passes its own check `P` on the numeral. -/
theorem assembleLine_eq_ite {l : SourceLine} {i : Instr} {P : Prop} [Decidable P] (hcheck : l.wellFormed = decide P)
    (hinstr : instrOfLine l = if l.wellFormed then some i else none) :
    assembleLine l = if P then some (encode i) else none := by
  rw [assembleLine, hinstr, hcheck]
  by_cases h : P <;> simp [h]

/-- Settles O33: each mnemonic checks its numeral against its operand's width, and R56's three lines evaluate. -/
theorem assemblerRejectsWideNumerals : Obligations.AssemblerRejectsWideNumerals :=
  ⟨fun _ => rfl, fun _ => rfl, fun _ => rfl,
    fun n => ⟨assembleLine_eq_ite (i := .loadkey (BitVec.ofNat 10 n)) rfl rfl,
      assembleLine_eq_ite (i := .enc (BitVec.ofNat 8 n)) rfl rfl,
      assembleLine_eq_ite (i := .dec (BitVec.ofNat 8 n)) rfl rfl⟩,
    by decide, by decide, by decide⟩

end Sys2Proof.Machine
end

section
/-!
SUPPORT. LS on the two halves of a 10-bit key quantity (40_key_schedule.md R71): each half of the result is the same
half rotated, so a position moves within its own half.
-/

namespace Sys2Proof.Machine

@[simp] theorem leftKeyHalf_rotateHalves (v : Key) (s : Nat) :
    leftKeyHalf (rotateHalves v s) = rol (leftKeyHalf v) s := BitVec.extractLsb'_append_eq_left

@[simp] theorem rightKeyHalf_rotateHalves (v : Key) (s : Nat) :
    rightKeyHalf (rotateHalves v s) = rol (rightKeyHalf v) s := BitVec.extractLsb'_append_eq_right

theorem keyHalves_append (v : Key) : leftKeyHalf v ++ rightKeyHalf v = v :=
  (BitVec.extractLsb'_append_extractLsb'_eq_extractLsb' (by decide)).trans BitVec.extractLsb'_eq_self

theorem seq_leftKeyHalf (v : Key) (i : Fin 5) : seq (leftKeyHalf v) i = v.getLsbD (9 - i.val) := by
  have hlt : 4 - i.val < 5 := by omega
  have hsum : 5 + (4 - i.val) = 9 - i.val := by omega
  simp [seq, leftKeyHalf, hlt, hsum]

theorem seq_rightKeyHalf (v : Key) (i : Fin 5) : seq (rightKeyHalf v) i = v.getLsbD (4 - i.val) := by
  have hlt : 4 - i.val < 5 := by omega
  simp [seq, rightKeyHalf, hlt]

/-- Two rotations that together stay below the width are one. -/
theorem rol_rol {w s t : Nat} (v : BitVec w) (h : s + t < w) : rol (rol v s) t = rol v (s + t) :=
  eq_of_seq_eq fun i => by
    rw [seq_rol _ (by omega), seq_rol _ (by omega), seq_rol _ h]
    simp [Nat.add_assoc, Nat.add_comm t s]

/-- R12 asks for an offset below the width; there the left part is shifted out and the right part is all of `v`. -/
theorem rol_width {w : Nat} (v : BitVec w) : rol v w = v := by
  simp [rol]

theorem rotateHalves_rotateHalves (v : Key) {s t : Nat} (h : s + t < 5) :
    rotateHalves (rotateHalves v s) t = rotateHalves v (s + t) := by
  rw [rotateHalves, leftKeyHalf_rotateHalves, rightKeyHalf_rotateHalves, rol_rol _ h, rol_rol _ h, rotateHalves]

theorem rotateHalves_five (v : Key) : rotateHalves v 5 = v := by
  rw [rotateHalves, rol_width, rol_width, keyHalves_append]

theorem rotateHalves_getLsbD_left (v : Key) {s : Nat} (h : s < 5) (i : Fin 5) :
    (rotateHalves v s).getLsbD (9 - i.val) = v.getLsbD (9 - (i.val + s) % 5) := by
  rw [← seq_leftKeyHalf, leftKeyHalf_rotateHalves, seq_rol _ h, seq_leftKeyHalf]

theorem rotateHalves_getLsbD_right (v : Key) {s : Nat} (h : s < 5) (i : Fin 5) :
    (rotateHalves v s).getLsbD (4 - i.val) = v.getLsbD (4 - (i.val + s) % 5) := by
  rw [← seq_rightKeyHalf, rightKeyHalf_rotateHalves, seq_rol _ h, seq_rightKeyHalf]

/-- Settles O37: the rotation law of each half, composed once and applied at the offset 5. -/
theorem keyHalvesRotateIndependently : Obligations.KeyHalvesRotateIndependently :=
  ⟨fun v _ h i => ⟨rotateHalves_getLsbD_left v h i, rotateHalves_getLsbD_right v h i⟩,
    fun v => ⟨(rotateHalves_rotateHalves v (s := 1) (t := 2) (by decide)).symm, rotateHalves_five v⟩,
    by decide, by decide, by decide⟩

end Sys2Proof.Machine
end

section
/-!
SUPPORT. Gathering through any table (00_scope.md R11): the sequence of the result, what it depends on, and what a
bijection table (41_permutation_network.md R95) keeps.
-/

namespace Sys2Proof.Machine

variable {n m : Nat}

/-- The sequence of a gathered value is the input's sequence read in the table's order. -/
theorem ofFn_seq_gather (T : Table n m) (v : BitVec n) : List.ofFn (seq (gather T v)) = T.toList.map (seq v) := by
  apply List.ext_getElem
  · simp
  · intro i hi _
    simp [Vector.get]

/-- Reading back through a table that undoes the first one gives the value back. -/
theorem gather_gather_of_inverse {T : Table n m} {U : Table m n} (h : ∀ i, T.get (U.get i) = i) (v : BitVec n) :
    gather U (gather T v) = v :=
  eq_of_seq_eq fun i => by rw [seq_gather, seq_gather, h]

/-- Equal results agree at every position the table reads. -/
theorem seq_eq_of_gather_eq {T : Table n m} {v w : BitVec n} (h : gather T v = gather T w) (i : Fin m) :
    seq v (T.get i) = seq w (T.get i) := by
  rw [← seq_gather, h, seq_gather]

theorem seq_xor (v w : BitVec n) (i : Fin n) : seq (v ^^^ w) i = (seq v i ^^ seq w i) := BitVec.getLsbD_xor

theorem gather_xor (T : Table n m) (v w : BitVec n) : gather T (v ^^^ w) = gather T v ^^^ gather T w :=
  eq_of_seq_eq fun i => by simp [seq_xor]

/-- A difference at positions that the table does not read does not show. -/
theorem gather_xor_of_gather_zero {T : Table n m} {d : BitVec n} (h : gather T d = 0#m) (v : BitVec n) :
    gather T (v ^^^ d) = gather T v := by
  rw [gather_xor, h, BitVec.xor_zero]

/-- A bijection table lists every position, in some order. -/
theorem toList_perm_finRange {T : Table n m} (h : isBijectionTable T = true) : T.toList.Perm (List.finRange n) := by
  refine List.perm_iff_count.2 fun p => ?_
  have hone : T.toList.count p = 1 := beq_iff_eq.1 (List.all_eq_true.1 h p (List.mem_finRange p))
  rw [hone, List.count_eq_one_of_mem (List.nodup_finRange n) (List.mem_finRange p)]

/-- So gathering through it rearranges the input's sequence, and keeps the number of 1 bits. -/
theorem ofFn_seq_gather_perm {T : Table n m} (h : isBijectionTable T = true) (v : BitVec n) :
    (List.ofFn (seq (gather T v))).Perm (List.ofFn (seq v)) := by
  rw [ofFn_seq_gather, List.ofFn_eq_map]
  exact (toList_perm_finRange h).map (seq v)

end Sys2Proof.Machine
end

section
/-!
SUPPORT. P10, P8 and the round keys (40_key_schedule.md R70, R72 to R74). Each round key is one gather of the master
key, by the table that R73 and R74 give as its closed form.
-/

namespace Sys2Proof.Machine

theorem tableP10_isBijection : isBijectionTable tableP10 = true := by decide

/-- Settles O36: the wiring and what P10 keeps are the laws of gathering, at the two tables. -/
theorem keyPermutationsWiring : Obligations.KeyPermutationsWiring :=
  ⟨ofFn_seq_gather tableP10, tableP10_isBijection, by decide, by decide,
    fun v => (ofFn_seq_gather_perm tableP10_isBijection v).count_eq true,
    gather_gather_of_inverse (by decide), by decide,
    ofFn_seq_gather tableP8, by decide, by decide, by decide, by decide, by decide⟩

/-- The position of the input that LS by `s` brings to a position: `s` further on, cyclically in the same half. -/
def rotatedPos (s : Nat) : Fin 10 → Fin 10 :=
  Fin.addCases (m := 5) (n := 5) (fun i => Fin.castAdd 5 ⟨(i.val + s) % 5, Nat.mod_lt _ (by decide)⟩)
    fun i => Fin.natAdd 5 ⟨(i.val + s) % 5, Nat.mod_lt _ (by decide)⟩

/-- Positions 0 to 4 are the left half, 5 to 9 the right. -/
theorem seq_castAdd (v : Key) (i : Fin 5) : seq v (Fin.castAdd 5 i) = seq (leftKeyHalf v) i :=
  (seq_leftKeyHalf v i).symm

theorem seq_natAdd (v : Key) (i : Fin 5) : seq v (Fin.natAdd 5 i) = seq (rightKeyHalf v) i := by
  have hsub : 9 - (5 + i.val) = 4 - i.val := by omega
  rw [seq_rightKeyHalf, seq, Fin.val_natAdd, hsub]

theorem seq_rotateHalves (v : Key) {s : Nat} (h : s < 5) (i : Fin 10) :
    seq (rotateHalves v s) i = seq v (rotatedPos s i) := by
  induction i using Fin.addCases (m := 5) (n := 5) with
  | left i => rw [rotatedPos, Fin.addCases_left, seq_castAdd, seq_castAdd, leftKeyHalf_rotateHalves, seq_rol _ h]
  | right i => rw [rotatedPos, Fin.addCases_right, seq_natAdd, seq_natAdd, rightKeyHalf_rotateHalves, seq_rol _ h]

/-- The closed form of K1 as a table of master key positions (R73). -/
def tableK1 : Table 10 8 := #v[0, 6, 8, 3, 7, 2, 9, 5]

/-- The closed form of K2 as a table of master key positions (R74). -/
def tableK2 : Table 10 8 := #v[7, 2, 5, 4, 9, 1, 8, 0]

/-- P10, a rotation of the halves and P8 are one gather, by a table that follows a position back through the three. -/
theorem selectP8_rotateHalves_permP10 {T : Table 10 8} {s : Nat} (hs : s < 5)
    (hT : ∀ i, tableP10.get (rotatedPos s (tableP8.get i)) = T.get i) (mk : Key) :
    selectP8 (rotateHalves (permP10 mk) s) = gather T mk :=
  eq_of_seq_eq fun i => by rw [selectP8, seq_gather, seq_rotateHalves _ hs, permP10, seq_gather, hT, seq_gather]

theorem deriveK1_eq_gather (mk : Key) : deriveK1 mk = gather tableK1 mk :=
  selectP8_rotateHalves_permP10 (by decide) (by decide) mk

theorem deriveK2_eq_gather (mk : Key) : deriveK2 mk = gather tableK2 mk :=
  selectP8_rotateHalves_permP10 (by decide) (by decide) mk

theorem deriveK1_xor_of_unread {d : Key} (h : gather tableK1 d = 0#8) (mk : Key) :
    deriveK1 (mk ^^^ d) = deriveK1 mk := by
  rw [deriveK1_eq_gather, deriveK1_eq_gather, gather_xor_of_gather_zero h]

theorem deriveK2_xor_of_unread {d : Key} (h : gather tableK2 d = 0#8) (mk : Key) :
    deriveK2 (mk ^^^ d) = deriveK2 mk := by
  rw [deriveK2_eq_gather, deriveK2_eq_gather, gather_xor_of_gather_zero h]

/-- Settles O38: each closed form is read off the round key's table; a bit that the table does not name is not read. -/
theorem roundKeysClosedForms : Obligations.RoundKeysClosedForms := by
  refine ⟨fun mk => ?_, fun mk => ?_, fun mk => ?_, fun mk => ?_, fun mk => ⟨rfl, rfl, ?_⟩,
    by decide, by decide⟩
  · rw [deriveK1_eq_gather, ofFn_seq_gather]
    rfl
  · rw [deriveK2_eq_gather, ofFn_seq_gather]
    rfl
  · exact ⟨deriveK1_xor_of_unread (by decide) mk, deriveK1_xor_of_unread (by decide) mk⟩
  · exact ⟨deriveK2_xor_of_unread (by decide) mk, deriveK2_xor_of_unread (by decide) mk⟩
  · rw [rotateHalves_rotateHalves _ (by decide), deriveK2]

end Sys2Proof.Machine
end

section
/-!
SUPPORT. The pair of round keys (40_key_schedule.md R75, R76): what it tells of the master key, and what the block
commands do with the pair that LOADKEY stored.
-/

namespace Sys2Proof.Machine

/-- K1 misses positions 1 and 4 and K2 misses 3 and 6, so each position is read for one of them (R75). -/
theorem keyPosition_is_read (p : Fin 10) : (∃ i, tableK1.get i = p) ∨ (∃ i, tableK2.get i = p) := by
  revert p
  decide

theorem deriveRoundKeys_injective {a b : Key} (h : deriveRoundKeys a = deriveRoundKeys b) : a = b := by
  obtain ⟨h1, h2⟩ := Prod.mk.inj h
  rw [deriveK1_eq_gather, deriveK1_eq_gather] at h1
  rw [deriveK2_eq_gather, deriveK2_eq_gather] at h2
  refine eq_of_seq_eq fun p => ?_
  obtain ⟨i, rfl⟩ | ⟨i, rfl⟩ := keyPosition_is_read p
  · exact seq_eq_of_gather_eq h1 i
  · exact seq_eq_of_gather_eq h2 i

/-- With equal round keys their order does not matter (44 R147). -/
theorem encryptBlock_eq_decryptBlock (t : SBoxTables) (b : Block) {k1 k2 : RoundKey} (h : k1 = k2) :
    encryptBlock t b k1 k2 = decryptBlock t b k1 k2 := by
  rw [h, encryptBlock, decryptBlock]

theorem exec_enc_eq_exec_dec (b : Block) {s : State} (hkey : s.kv = true) (h : s.k1 = s.k2) :
    exec (.enc b) s = exec (.dec b) s := by
  rw [exec_enc_keyed b hkey, exec_dec_keyed b hkey, encryptBlock_eq_decryptBlock _ b h]

/-- Settles O39: the pair reads every position of the master key, and LOADKEY stores the pair that ENC and DEC use. -/
theorem roundKeyPairIsInjective : Obligations.RoundKeyPairIsInjective := by
  refine ⟨fun _ _ => deriveRoundKeys_injective, fun _ => rfl, by decide, by decide, by decide,
    ⟨0x040#10, 0x000#10, by decide, by decide⟩, by decide, fun mk b s t hequal hload => ?_⟩
  obtain rfl : installKey mk (deriveRoundKeys mk) s = t := Host.Outcome.next.inj hload
  exact exec_enc_eq_exec_dec b rfl hequal

/-- Settles O15: with a key, the cache invariant makes K1 and K2 the derived pair. -/
theorem cachedKeysEqualRecomputedKeys : Obligations.CachedKeysEqualRecomputedKeys := by
  intro b s hcache hkey
  obtain ⟨hk1, hk2⟩ := Prod.mk.inj (hcache hkey)
  rw [← hk1, ← hk2]
  exact ⟨exec_enc_keyed b hkey, exec_dec_keyed b hkey⟩

end Sys2Proof.Machine
end

section
/-!
SUPPORT. PermutationNetwork (41_permutation_network.md R90 to R95). Each table's class is found once; what IP and EP keep
follows from the laws of gathering, and IP and IPI undo each other because their tables do.
-/

namespace Sys2Proof.Machine

theorem tableIP_isBijection : isBijectionTable tableIP = true := by decide

theorem tableIPI_isBijection : isBijectionTable tableIPI = true := by decide

theorem tableP4_isBijection : isBijectionTable tableP4 = true := by decide

theorem tableEP_isExpansion : isExpansionTable tableEP = true := by decide

/-- A table that reads every position loses nothing. -/
theorem gather_injective {n m : Nat} {T : Table n m} (hread : ∀ p, ∃ i, T.get i = p) {v w : BitVec n}
    (h : gather T v = gather T w) : v = w := by
  refine eq_of_seq_eq fun p => ?_
  obtain ⟨i, rfl⟩ := hread p
  exact seq_eq_of_gather_eq h i

/-- A position that an expansion uses twice is read. -/
theorem exists_get_eq_of_isExpansionTable {n m : Nat} {T : Table n m} (h : isExpansionTable T = true) (p : Fin n) :
    ∃ i, T.get i = p := by
  have htwo : T.toList.count p = 2 := beq_iff_eq.1 (List.all_eq_true.1 h p (List.mem_finRange p))
  have hmem : p ∈ T.toList := List.count_pos_iff.1 (by omega)
  obtain ⟨i, hi, hp⟩ := Vector.mem_iff_getElem.1 (Vector.mem_toList_iff.1 hmem)
  exact ⟨⟨i, hi⟩, hp⟩

theorem expandHalf_injective {a b : Half} : expandHalf a = expandHalf b → a = b :=
  gather_injective (exists_get_eq_of_isExpansionTable tableEP_isExpansion)

theorem inverseInitialPerm_initialPerm (x : Block) : inverseInitialPerm (initialPerm x) = x :=
  gather_gather_of_inverse (by decide) x

theorem initialPerm_inverseInitialPerm (x : Block) : initialPerm (inverseInitialPerm x) = x :=
  gather_gather_of_inverse (by decide) x

theorem count_true_initialPerm (v : Block) :
    (List.ofFn (seq (initialPerm v))).count true = (List.ofFn (seq v)).count true :=
  (ofFn_seq_gather_perm tableIP_isBijection v).count_eq true

/-- Settles O41: each table reads back through the other. -/
theorem initialPermutationInverses : Obligations.InitialPermutationInverses :=
  ⟨inverseInitialPerm_initialPerm, initialPerm_inverseInitialPerm⟩

/-- Settles O42: the class of each table, and a position that P8 and EP do not use exactly once. -/
theorem tableClasses : Obligations.TableClasses :=
  ⟨tableP10_isBijection, tableIP_isBijection, tableIPI_isBijection, tableP4_isBijection, by decide,
    tableEP_isExpansion, by decide, by decide⟩

/-- Settles O40: the wiring is the law of gathering at the four tables, and a position that a table reads at its own
place is fixed; the examples evaluate. -/
theorem blockPermutationsWiring : Obligations.BlockPermutationsWiring :=
  ⟨ofFn_seq_gather tableIP, ofFn_seq_gather tableIPI, ofFn_seq_gather tableEP, ofFn_seq_gather tableP4,
    count_true_initialPerm, fun v => seq_gather tableIP v 2, fun v => seq_gather tableP4 v 2,
    by decide, by decide, by decide, by decide, by decide,
    fun v => ⟨inverseInitialPerm_initialPerm v, initialPerm_inverseInitialPerm v⟩, by decide,
    tableIP_isBijection, tableIPI_isBijection, tableEP_isExpansion, tableP4_isBijection,
    by decide, by decide, fun _ _ => expandHalf_injective, by decide, by decide, by decide, by decide⟩

end Sys2Proof.Machine
end

section
/-!
SUPPORT. SBoxSubstitution (42_sbox_substitution.md R110 to R114). A value of Substitute is found from the coordinates
that the two halves select; what the cells hold is a hypothesis, which the machine's own tables then meet.
-/

namespace Sys2Proof.Machine

theorem sboxRow_val (h : Half) : (sboxRow h).val = 2 * (h.getLsbD 3).toNat + (h.getLsbD 0).toNat := rfl

theorem sboxCol_val (h : Half) : (sboxCol h).val = 2 * (h.getLsbD 2).toNat + (h.getLsbD 1).toNat := rfl

/-- Substitute reads one cell of each table, at the coordinates of the two halves (R113). -/
theorem substitute_of_cells {t : SBoxTables} {x : BitVec 8} {r0 c0 r1 c1 : Fin 4} {a b : BitVec 2}
    (hleft : sboxRow (leftHalf x) = r0 ∧ sboxCol (leftHalf x) = c0)
    (hright : sboxRow (rightHalf x) = r1 ∧ sboxCol (rightHalf x) = c1)
    (ha : (t.s0.get r0).get c0 = a) (hb : (t.s1.get r1).get c1 = b) : substitute t x = a ++ b := by
  obtain ⟨rfl, rfl⟩ := hleft
  obtain ⟨rfl, rfl⟩ := hright
  rw [substitute, sboxCell, sboxCell, ha, hb]

theorem substitute_zeros {t : SBoxTables} (h0 : (t.s0.get 0).get 0 = 1#2) (h1 : (t.s1.get 0).get 0 = 0#2) :
    substitute t 0x00#8 = 0b0100#4 :=
  substitute_of_cells (by decide) (by decide) h0 h1

theorem substitute_ones {t : SBoxTables} (h0 : (t.s0.get 3).get 3 = 2#2) (h1 : (t.s1.get 3).get 3 = 3#2) :
    substitute t 0xFF#8 = 0b1011#4 :=
  substitute_of_cells (by decide) (by decide) h0 h1

/-- The word that W10's first round substitutes (R113, Example). -/
theorem substitute_w10_round1 {t : SBoxTables} (h0 : (t.s0.get 1).get 3 = 0#2) (h1 : (t.s1.get 2).get 3 = 0#2) :
    substitute t 0b01111110#8 = 0b0000#4 :=
  substitute_of_cells (by decide) (by decide) h0 h1

/-- 256 inputs share 16 values, whatever the cells hold. -/
theorem substitute_not_injective (t : SBoxTables) : ∃ x y : BitVec 8, x ≠ y ∧ substitute t x = substitute t y := by
  obtain ⟨i, j, hne, heq⟩ := Fintype.exists_ne_map_eq_of_card_lt
    (fun i : Fin (2 ^ 8) => (substitute t (BitVec.ofFin i)).toFin) (by simp)
  exact ⟨BitVec.ofFin i, BitVec.ofFin j, mt BitVec.ofFin.inj hne, BitVec.eq_of_toFin_eq heq⟩

/-- Settles O43: a half's coordinates are its bits, a value of Substitute is the two cells that the coordinates select,
and 8 bits do not fit in 4. -/
theorem substituteReadsTheSelectedCells : Obligations.SubstituteReadsTheSelectedCells :=
  ⟨fun h => ⟨sboxRow_val h, sboxCol_val h⟩, fun _ _ => substitute_of_cells ⟨rfl, rfl⟩ ⟨rfl, rfl⟩ rfl rfl,
    substitute_not_injective, fun _ => substitute_zeros, fun _ => substitute_ones, fun _ => substitute_w10_round1⟩

/-- Settles O51: the 16 halves are read in both tables, whose cells meet the assumptions on the three values. -/
theorem defaultSBoxCellsByNibble : Obligations.DefaultSBoxCellsByNibble :=
  ⟨by decide, substitute_zeros (by decide) (by decide), substitute_ones (by decide) (by decide),
    substitute_w10_round1 (by decide) (by decide), substitute_not_injective sboxes⟩

end Sys2Proof.Machine
end

section
/-!
SUPPORT. XOR and the keyed mixing function F (43_feistel_round.md R130, R131). F reads its two operands through
`EP(r) XOR k` only, so a value of F is found from the keyed expansion.
-/

namespace Sys2Proof.Machine

/-- XOR bit by bit, on the registers (R130). -/
theorem getLsbD_xorBits {n : Nat} (a b : BitVec n) (i : Nat) :
    (xorBits a b).getLsbD i = (a.getLsbD i ^^ b.getLsbD i) := BitVec.getLsbD_xor

@[simp] theorem xorBits_self {n : Nat} (a : BitVec n) : xorBits a a = 0#n := BitVec.xor_self

@[simp] theorem xorBits_zero {n : Nat} (a : BitVec n) : xorBits a 0#n = a := BitVec.xor_zero

theorem xorBits_comm {n : Nat} (a b : BitVec n) : xorBits a b = xorBits b a := BitVec.xor_comm a b

theorem xorBits_assoc {n : Nat} (a b c : BitVec n) : xorBits (xorBits a b) c = xorBits a (xorBits b c) :=
  BitVec.xor_assoc a b c

/-- A second XOR with the same value undoes the first. -/
@[simp] theorem xorBits_xorBits_self {n : Nat} (a b : BitVec n) : xorBits (xorBits a b) b = a := by
  rw [xorBits_assoc, xorBits_self, xorBits_zero]

theorem mixHalf_eq_of_keyedExpansion_eq (t : SBoxTables) {r q : Half} {k j : RoundKey}
    (h : xorBits (expandHalf r) k = xorBits (expandHalf q) j) : mixHalf t r k = mixHalf t q j := by
  rw [mixHalf, h, mixHalf]

theorem mixHalf_zeros : mixHalf sboxes 0x0#4 0x00#8 = 0b1000#4 := by decide

/-- EP of the all-ones half cancels the all-ones key, as the zero half does with the zero key. -/
theorem mixHalf_ones : mixHalf sboxes 0xF#4 0xFF#8 = 0b1000#4 :=
  (mixHalf_eq_of_keyedExpansion_eq sboxes (by decide)).trans mixHalf_zeros

/-- Settles O44: XOR is the library's, and F is a function of the keyed expansion. -/
theorem mixDependsOnKeyedExpansion : Obligations.MixDependsOnKeyedExpansion :=
  ⟨fun _ => getLsbD_xorBits,
    fun _ a b c => ⟨xorBits_self a, xorBits_zero a, xorBits_comm a b, xorBits_assoc a b c⟩, by decide,
    fun _ _ _ => rfl, fun t _ _ _ _ => mixHalf_eq_of_keyedExpansion_eq t, mixHalf_zeros, mixHalf_ones, by decide⟩

end Sys2Proof.Machine
end

section
/-!
SUPPORT. One Feistel round, half by half (43_feistel_round.md R132).
-/

namespace Sys2Proof.Machine

@[simp] theorem leftHalf_feistelRound (t : SBoxTables) (x : Block) (k : RoundKey) :
    leftHalf (feistelRound t x k) = xorBits (leftHalf x) (mixHalf t (rightHalf x) k) := leftHalf_append _ _

@[simp] theorem rightHalf_feistelRound (t : SBoxTables) (x : Block) (k : RoundKey) :
    rightHalf (feistelRound t x k) = rightHalf x := rightHalf_append _ _

/-- The second round computes F of the same right half, so its XOR undoes the first one's. -/
@[simp] theorem feistelRound_feistelRound (t : SBoxTables) (x : Block) (k : RoundKey) :
    feistelRound t (feistelRound t x k) k = x := by
  rw [feistelRound, leftHalf_feistelRound, rightHalf_feistelRound, xorBits_xorBits_self, halves_append]

/-- Settles O45: the two halves of a round, and the round undone by itself. -/
theorem feistelRoundIsAnInvolution : Obligations.FeistelRoundIsAnInvolution :=
  ⟨fun t x k => ⟨rightHalf_feistelRound t x k, leftHalf_feistelRound t x k, feistelRound_feistelRound t x k⟩,
    by decide⟩

end Sys2Proof.Machine
end

section
/-!
SUPPORT. The half swap (43_feistel_round.md R133), on a block as its two halves and as sequence positions 0 to 3 and
4 to 7.
-/

namespace Sys2Proof.Machine

theorem seq_append_castAdd {n m : Nat} (a : BitVec n) (b : BitVec m) (i : Fin n) :
    seq (a ++ b) (Fin.castAdd m i) = seq a i := by
  rw [seq_eq_getMsbD, seq_eq_getMsbD, BitVec.getMsbD_append, Fin.val_castAdd, if_neg (Nat.not_le.2 i.isLt)]

theorem seq_append_natAdd {n m : Nat} (a : BitVec n) (b : BitVec m) (i : Fin m) :
    seq (a ++ b) (Fin.natAdd n i) = seq b i := by
  rw [seq_eq_getMsbD, seq_eq_getMsbD, BitVec.getMsbD_append, Fin.val_natAdd, if_pos (Nat.le_add_right _ _),
    Nat.add_sub_cancel_left]

theorem seq_leftHalf (x : Block) (i : Fin 4) : seq (leftHalf x) i = seq x (Fin.castAdd 4 i) := by
  rw [← seq_append_castAdd (leftHalf x) (rightHalf x), halves_append]

theorem seq_rightHalf (x : Block) (i : Fin 4) : seq (rightHalf x) i = seq x (Fin.natAdd 4 i) := by
  rw [← seq_append_natAdd (leftHalf x) (rightHalf x), halves_append]

@[simp] theorem leftHalf_swapHalves (x : Block) : leftHalf (swapHalves x) = rightHalf x := leftHalf_append _ _

@[simp] theorem rightHalf_swapHalves (x : Block) : rightHalf (swapHalves x) = leftHalf x := rightHalf_append _ _

@[simp] theorem swapHalves_swapHalves (x : Block) : swapHalves (swapHalves x) = x := by
  rw [swapHalves, rightHalf_swapHalves, leftHalf_swapHalves, halves_append]

/-- A block that the swap fixes has its right half on both sides. -/
theorem swapHalves_eq_self_iff (x : Block) : swapHalves x = x ↔ ∃ h : Half, x = h ++ h := by
  constructor
  · intro hfix
    have hleft : leftHalf x = rightHalf x := by rw [← leftHalf_swapHalves, hfix]
    have hblock := halves_append x
    rw [hleft] at hblock
    exact ⟨rightHalf x, hblock.symm⟩
  · rintro ⟨h, rfl⟩
    rw [swapHalves, rightHalf_append, leftHalf_append]

/-- The sequence table of the half swap (R133). -/
def tableSW : Table 8 8 := #v[4, 5, 6, 7, 0, 1, 2, 3]

theorem tableSW_get_left : ∀ i : Fin 4, tableSW.get (Fin.castAdd 4 i) = Fin.natAdd 4 i := by decide

theorem tableSW_get_right : ∀ i : Fin 4, tableSW.get (Fin.natAdd 4 i) = Fin.castAdd 4 i := by decide

theorem swapHalves_eq_gather (x : Block) : swapHalves x = gather tableSW x := by
  refine eq_of_seq_eq fun i => ?_
  rw [seq_gather, swapHalves]
  induction i using Fin.addCases (m := 4) (n := 4) with
  | left i => rw [seq_append_castAdd, seq_rightHalf, tableSW_get_left]
  | right i => rw [seq_append_natAdd, seq_leftHalf, tableSW_get_right]

/-- Settles O46: each half of a swapped block is the other half of the block, and the wiring holds half by half. -/
theorem swapExchangesTheHalves : Obligations.SwapExchangesTheHalves :=
  ⟨fun _ => rfl, swapHalves_swapHalves, swapHalves_eq_self_iff, swapHalves_eq_gather, by decide⟩

end Sys2Proof.Machine
end

section
/-!
SUPPORT. The block functions (44_block_cipher.md R141, R142, R147). Decryption is encryption with the round keys
exchanged, so one round trip, for every pair of S-boxes, gives both directions.
-/

namespace Sys2Proof.Machine

/-- R142 against R141: the same structure, the round keys in reverse order. -/
theorem decryptBlock_eq_encryptBlock_swapped (t : SBoxTables) (c : Block) (k1 k2 : RoundKey) :
    decryptBlock t c k1 k2 = encryptBlock t c k2 k1 := rfl

/-- Under the exchanged keys each stage meets its own inverse, from the outside in: IP after IPI, the second round, the
swap, the first round, and IPI after IP. -/
theorem encryptBlock_encryptBlock_swapped (t : SBoxTables) (b : Block) (k1 k2 : RoundKey) :
    encryptBlock t (encryptBlock t b k1 k2) k2 k1 = b := by
  rw [encryptBlock, encryptBlock, initialPerm_inverseInitialPerm, feistelRound_feistelRound, swapHalves_swapHalves,
    feistelRound_feistelRound, inverseInitialPerm_initialPerm]

@[simp] theorem decryptBlock_encryptBlock (t : SBoxTables) (b : Block) (k1 k2 : RoundKey) :
    decryptBlock t (encryptBlock t b k1 k2) k1 k2 = b := encryptBlock_encryptBlock_swapped t b k1 k2

@[simp] theorem encryptBlock_decryptBlock (t : SBoxTables) (b : Block) (k1 k2 : RoundKey) :
    encryptBlock t (decryptBlock t b k1 k2) k1 k2 = b := encryptBlock_encryptBlock_swapped t b k2 k1

/-- R141's example (W10). -/
theorem encryptBlock_w10 : encryptBlock sboxes 0xD5#8 0x17#8 0x6C#8 = 0x73#8 := by decide

/-- R142's example (W11) is W10 undone. -/
theorem decryptBlock_w11 : decryptBlock sboxes 0x73#8 0x17#8 0x6C#8 = 0xD5#8 := by
  rw [← encryptBlock_w10, decryptBlock_encryptBlock]

/-- R141's corner case of all ones (W12). -/
theorem encryptBlock_w12 : encryptBlock sboxes 0xFF#8 0xFF#8 0xFF#8 = 0x0F#8 := by decide

/-- W12's key is one with equal round keys (R147). -/
theorem deriveRoundKeys_w12 : deriveRoundKeys 0x3FF#10 = (0xFF#8, 0xFF#8) := by decide

/-- Settles O47: the structure is the definition, and the three values evaluate. -/
theorem encryptBlockStructure : Obligations.EncryptBlockStructure :=
  ⟨fun _ _ _ _ => rfl, encryptBlock_w12, by decide, encryptBlock_w10⟩

/-- Settles O48: the round trip of encryption under exchanged round keys, read in both directions. -/
theorem decryptInvertsEncrypt : Obligations.DecryptInvertsEncrypt :=
  ⟨fun t c k1 k2 => ⟨rfl, decryptBlock_eq_encryptBlock_swapped t c k1 k2⟩,
    fun t b k1 k2 => ⟨decryptBlock_encryptBlock t b k1 k2, encryptBlock_decryptBlock t b k1 k2⟩, decryptBlock_w11⟩

/-- Settles O49: exchanging equal round keys changes nothing, so encryption is its own inverse; the second value of the
example is the first one undone. -/
theorem equalRoundKeysMakeAnInvolution : Obligations.EqualRoundKeysMakeAnInvolution := by
  obtain ⟨hk1, hk2⟩ := Prod.mk.inj deriveRoundKeys_w12
  rw [Obligations.EqualRoundKeysMakeAnInvolution, hk1, hk2]
  refine ⟨fun t b k => ⟨decryptBlock_eq_encryptBlock_swapped t b k k, encryptBlock_encryptBlock_swapped t b k k⟩,
    by decide, rfl, encryptBlock_w12, ?_⟩
  rw [← encryptBlock_w12, encryptBlock_encryptBlock_swapped]

end Sys2Proof.Machine
end

section
/-!
SUPPORT. The block commands as instructions (44_block_cipher.md R143 to R146): which words decode to them, what each
does with a key and without one, and what each leaves unchanged.
-/

namespace Sys2Proof

/-- A word written as R53 cuts it has the fields that it was written from. -/
theorem fields_of_append (op reserved : BitVec 2) (b : Block) :
    opField (op ++ reserved ++ b) = op ∧ reservedField (op ++ reserved ++ b) = reserved ∧
      blockField (op ++ reserved ++ b) = b := by
  have hop : opField (op ++ reserved ++ b) = (op ++ reserved).extractLsb' 2 2 :=
    BitVec.extractLsb'_append_eq_of_le (by decide)
  have hreserved : reservedField (op ++ reserved ++ b) = (op ++ reserved).extractLsb' 0 2 :=
    BitVec.extractLsb'_append_eq_of_le (by decide)
  exact ⟨hop.trans BitVec.extractLsb'_append_eq_left, hreserved.trans BitVec.extractLsb'_append_eq_right,
    BitVec.extractLsb'_append_eq_right⟩

/-- A word is ENC's with the block exactly if its fields are those that R144 writes. -/
theorem decode_eq_enc_iff {w : CmdWord} {b : Block} : decode w = .command (.enc b) ↔
    opField w = 0b10#2 ∧ reservedField w = 0b00#2 ∧ blockField w = b := by
  constructor
  · intro h
    exact decode_eq_command_iff.1 h ▸ fields_of_append 0b10#2 0b00#2 b
  · rintro ⟨hop, hreserved, rfl⟩
    exact decode_of_op_enc hop hreserved

/-- A word is DEC's with the block exactly if its fields are those that R145 writes. -/
theorem decode_eq_dec_iff {w : CmdWord} {b : Block} : decode w = .command (.dec b) ↔
    opField w = 0b11#2 ∧ reservedField w = 0b00#2 ∧ blockField w = b := by
  constructor
  · intro h
    exact decode_eq_command_iff.1 h ▸ fields_of_append 0b11#2 0b00#2 b
  · rintro ⟨hop, hreserved, rfl⟩
    exact decode_of_op_dec hop hreserved

end Sys2Proof

namespace Sys2Proof.Machine

/-- Settles O1: the step samples a command, and the command is the one that the word decodes to. -/
theorem stepRunsTheDecodedCommand : Obligations.StepRunsTheDecodedCommand := by
  intro s i hrst hvalid hword
  rw [step_eq, stepPort, portAction_of_cmdValid hrst hvalid]
  exact execute_of_decode hword (consumePorts s)

theorem exec_loadkey (k : Key) (s : State) : exec (.loadkey k) s = .next (installKey k (deriveRoundKeys k) s) := rfl

theorem eq_installKey_of_exec_loadkey {k : Key} {s t : State} (h : exec (.loadkey k) s = .next t) :
    t = installKey k (deriveRoundKeys k) s := (Host.Outcome.next.inj h).symm

/-- The round keys of R143's example (W5). -/
theorem deriveRoundKeys_w5 : deriveRoundKeys 0x282#10 = (0xA4#8, 0x43#8) := by decide

/-- Settles O8: `installKey` is R143's list of writes, and a LOADKEY word's operand is its low ten bits. -/
theorem loadkeyInstallsTheKey : Obligations.LoadkeyInstallsTheKey := by
  refine ⟨fun _ _ => rfl, ?_, fun s => ?_⟩
  · rintro _ w hop rfl
    exact decode_of_op_loadkey hop
  · rw [exec_loadkey, deriveRoundKeys_w5]
    rfl

/-- Settles O12: `installKey` writes none of the three fields. -/
theorem loadkeyFrame : Obligations.LoadkeyFrame := by
  intro k s t h
  rw [eq_installKey_of_exec_loadkey h]
  exact ⟨installKey_dout .., installKey_inputs .., installKey_draws ..⟩

/-- With a key or without one, a block command writes none of the key registers, and DOUT only with a key. -/
theorem deliverIfKeyed_frame {d : Block} {s t : State} (h : deliverIfKeyed d s = .next t) :
    t.masterKey = s.masterKey ∧ t.k1 = s.k1 ∧ t.k2 = s.k2 ∧ t.kv = s.kv ∧ t.inputs = s.inputs ∧ t.draws = s.draws ∧
      (s.kv = false → t.dout = s.dout) := by
  obtain ⟨hkey, rfl⟩ | ⟨-, rfl⟩ := deliverIfKeyed_cases h
  · simp [hkey]
  · simp

/-- Settles O13: ENC and DEC end in the same operation. -/
theorem encDecFrame : Obligations.EncDecFrame := fun _ _ _ h => h.elim deliverIfKeyed_frame deliverIfKeyed_frame

theorem exec_enc_unkeyed (b : Block) {s : State} (h : s.kv = false) :
    exec (.enc b) s = .next (raiseError .noKey s) := deliverIfKeyed_unkeyed _ h

theorem exec_dec_unkeyed (b : Block) {s : State} (h : s.kv = false) :
    exec (.dec b) s = .next (raiseError .noKey s) := deliverIfKeyed_unkeyed _ h

theorem eq_deliverBlock_of_exec_enc {b : Block} {s t : State} (hkey : s.kv = true) (h : exec (.enc b) s = .next t) :
    t = deliverBlock (encryptBlock sboxes b s.k1 s.k2) s :=
  Host.Outcome.next.inj (h.symm.trans (exec_enc_keyed b hkey))

/-- The state after ENC has the same keys, so the same ENC delivers the same block over it. -/
theorem exec_enc_again {b : Block} {s t : State} (hkey : s.kv = true) (h : exec (.enc b) s = .next t) :
    exec (.enc b) t = .next t := by
  obtain rfl := eq_deliverBlock_of_exec_enc hkey h
  exact exec_enc_keyed b hkey

/-- R145 with R142: the round keys that DEC reads are those that ENC read. -/
theorem exec_dec_of_exec_enc {b : Block} {s t : State} (hkey : s.kv = true) (h : exec (.enc b) s = .next t) :
    exec (.dec t.dout) t = .next (deliverBlock b t) := by
  obtain rfl := eq_deliverBlock_of_exec_enc hkey h
  rw [exec_dec_keyed _ ((deliverBlock_kv _ s).trans hkey), deliverBlock_dout, deliverBlock_k1, deliverBlock_k2,
    decryptBlock_encryptBlock]

/-- The round keys of R144's and R145's examples (W10, W11). -/
theorem deriveRoundKeys_w10 : deriveRoundKeys 0x1D1#10 = (0x17#8, 0x6C#8) := by decide

/-- After LOADKEY of the examples' key, K1 and K2 are W10's. -/
theorem eq_installKey_of_exec_loadkey_w10 {s t : State} (h : exec (.loadkey 0x1D1#10) s = .next t) :
    t = installKey 0x1D1#10 (0x17#8, 0x6C#8) s := by
  rw [eq_installKey_of_exec_loadkey h, deriveRoundKeys_w10]

/-- Settles O9: the two outcomes of ENC, its row of the decoder, its repeat, and W10 after its LOADKEY. -/
theorem encWritesTheCiphertext : Obligations.EncWritesTheCiphertext := by
  refine ⟨fun b _ => exec_enc_keyed b, fun b _ => exec_enc_unkeyed b, fun _ _ => decode_eq_enc_iff,
    fun _ _ _ => exec_enc_again, fun s t hload => ?_⟩
  obtain rfl := eq_installKey_of_exec_loadkey_w10 hload
  rw [exec_enc_keyed _ (installKey_kv ..), installKey_k1, installKey_k2, encryptBlock_w10]
  rfl

/-- Settles O10: the two outcomes of DEC, its row of the decoder, ENC undone, equal round keys, and W11 after its
LOADKEY. -/
theorem decWritesThePlaintext : Obligations.DecWritesThePlaintext := by
  refine ⟨fun b _ => exec_dec_keyed b, fun b _ => exec_dec_unkeyed b, fun _ _ => decode_eq_dec_iff,
    fun _ _ _ => exec_dec_of_exec_enc,
    fun b s hequal => congrArg (deliverIfKeyed · s) (encryptBlock_eq_decryptBlock sboxes b hequal).symm,
    fun s t hload => ?_⟩
  obtain rfl := eq_installKey_of_exec_loadkey_w10 hload
  rw [exec_dec_keyed _ (installKey_kv ..), installKey_k1, installKey_k2, decryptBlock_w11]
  rfl

end Sys2Proof.Machine
end

section
/-!
SUPPORT. The host's block lines ENCB and DECB (30_encoding.md R58), one by one and as a stream (44_block_cipher.md
R148). Both are a command that, with a key, delivers some result of the round keys, so the stream is proved once for any such
command.
-/

namespace Sys2Proof.Machine

/-- A presented encoding runs its command. -/
theorem hostAct_drive_encode {i : Instr} {s t : State} (h : exec i (consumePorts s) = .next t) :
    hostAct (.drive (commandPort (encode i))) s = .next (t, []) := by
  have hstep : step (presentPort (commandPort (encode i)) s) = .next t := by
    rw [step_presentPort, stepPort_commandPort, execute_of_decode (decode_encode i), h]
  rw [hostAct, hstep]

theorem statusOf_deliverBlock (d : Block) {s : State} (h : s.kv = true) : statusOf (deliverBlock d s) = 0x03#8 := by
  rw [statusOf, deliverBlock_err, deliverBlock_dv, deliverBlock_kv, h]
  rfl

theorem hostAct_readStatus_deliverBlock (d : Block) {s : State} (h : s.kv = true) :
    hostAct .readStatus (deliverBlock d s) = .next (deliverBlock d s, [.status 0x03#8]) := by
  have hlegal : (deliverBlock d s).err ≠ 0b11#2 := errCode_ne_unassigned .ok
  rw [hostAct, readStatus_of_legal hlegal, statusOf_deliverBlock d h]

theorem hostAct_readDoutIfValid_deliverBlock (d : Block) (s : State) :
    hostAct .readDoutIfValid (deliverBlock d s) = .next (deliverBlock d s, [.dout d]) := rfl

/-- The actions of a block line whose command is `i`. -/
def blockLineActions (i : Instr) : List HostAction :=
  [.drive (commandPort (encode i)), .readStatus, .readDoutIfValid]

/-- A block command: with a key it delivers `result` of the two round keys. -/
def DeliversResult (i : Instr) (result : RoundKey → RoundKey → Block) : Prop :=
  ∀ s : State, s.kv = true → exec i s = .next (deliverBlock (result s.k1 s.k2) s)

theorem enc_deliversResult (b : Block) : DeliversResult (.enc b) (encryptBlock sboxes b) := fun _ => exec_enc_keyed b

theorem dec_deliversResult (b : Block) : DeliversResult (.dec b) (decryptBlock sboxes b) := fun _ => exec_dec_keyed b

/-- With a key, a block line reads back success and its own result. -/
theorem runActions_blockLine {i : Instr} {result : RoundKey → RoundKey → Block} (hdeliver : DeliversResult i result)
    {s : State} (hkey : s.kv = true) :
    runActions (blockLineActions i) s = .next (deliverBlock (result s.k1 s.k2) (consumePorts s),
      [.status 0x03#8, .dout (result s.k1 s.k2)]) := by
  have hcommand := hostAct_drive_encode (hdeliver (consumePorts s) hkey)
  have hstatus := hostAct_readStatus_deliverBlock (result s.k1 s.k2) (s := consumePorts s) hkey
  have hdout := hostAct_readDoutIfValid_deliverBlock (result s.k1 s.k2) (consumePorts s)
  exact runActions_cons hcommand (runActions_cons hstatus (runActions_cons hdout (runActions_nil _)))

/-- A stream of block lines: a line leaves KV, K1 and K2 as they were, so the next one starts where this one did. -/
theorem runActions_blockLines {instr : Block → Instr} {result : Block → RoundKey → RoundKey → Block}
    (hdeliver : ∀ b, DeliversResult (instr b) (result b)) (bs : List Block) (s : State) (hkey : s.kv = true) :
    ∃ t, runActions (bs.flatMap fun b => blockLineActions (instr b)) s =
        .next (t, bs.flatMap fun b => [.status 0x03#8, .dout (result b s.k1 s.k2)]) ∧
      t.kv = true ∧ t.k1 = s.k1 ∧ t.k2 = s.k2 := by
  induction bs generalizing s with
  | nil => exact ⟨s, runActions_nil s, hkey, rfl, rfl⟩
  | cons b bs ih =>
    obtain ⟨t, hrest, hframe⟩ := ih (deliverBlock (result b s.k1 s.k2) (consumePorts s)) hkey
    exact ⟨t, runActions_append (runActions_blockLine (hdeliver b) hkey) hrest, hframe⟩

/-- Settles O25: ENCB and DECB are the block lines of ENC and DEC. -/
theorem blocksAreIndependent : Obligations.BlocksAreIndependent :=
  fun bs s hkey => ⟨runActions_blockLines enc_deliversResult bs s hkey,
    runActions_blockLines dec_deliversResult bs s hkey⟩

end Sys2Proof.Machine
end

section
/-!
SUPPORT. ParseKey (44_block_cipher.md R140) as the inverse of writing a key's sequence in the characters '0' and '1',
and SETKEY of what it answers (30_encoding.md R58).
-/

namespace Sys2Proof.Machine

/-- The character that a key bit is written as. -/
def keyChar (b : Bool) : Char := if b then '1' else '0'

theorem keyBit_keyChar (b : Bool) : keyBit (keyChar b) = some b := by
  cases b <;> decide

/-- A character is a bit's, or it is no key character. -/
theorem keyBit_cases (c : Char) : (∃ b, c = keyChar b) ∨ (c ≠ '0' ∧ c ≠ '1' ∧ keyBit c = none) := by
  by_cases h0 : c = '0'
  · exact .inl ⟨false, h0⟩
  · by_cases h1 : c = '1'
    · exact .inl ⟨true, h1⟩
    · exact .inr ⟨h0, h1, by rw [keyBit, if_neg h0, if_neg h1]⟩

theorem keyBits_map_keyChar (bs : List Bool) : keyBits (bs.map keyChar) = some bs := by
  induction bs with
  | nil => rfl
  | cons b bs ih => rw [List.map_cons, keyBits, keyBit_keyChar, ih]

/-- A string is a list of bits in writing, or it has a character that is neither '0' nor '1' and `keyBits` rejects
it. -/
theorem keyBits_cases (cs : List Char) :
    (∃ bs : List Bool, cs = bs.map keyChar) ∨ ((∃ c ∈ cs, c ≠ '0' ∧ c ≠ '1') ∧ keyBits cs = none) := by
  induction cs with
  | nil => exact .inl ⟨[], rfl⟩
  | cons c cs ih =>
    obtain ⟨b, rfl⟩ | ⟨h0, h1, hnone⟩ := keyBit_cases c
    · obtain ⟨bs, rfl⟩ | ⟨⟨c, hmem, hc⟩, hnone⟩ := ih
      · exact .inl ⟨b :: bs, rfl⟩
      · exact .inr ⟨⟨c, List.mem_cons_of_mem _ hmem, hc⟩, by simp [keyBits, hnone]⟩
    · exact .inr ⟨⟨c, List.mem_cons_self, h0, h1⟩, by rw [keyBits, hnone]⟩

/-- The ten characters of a key, position 0 first (R140). -/
def keyText (k : Key) : List Char := List.ofFn fun i : Fin 10 => keyChar (seq k i)

theorem keyText_eq_map (k : Key) : keyText k = (List.ofFn (seq k)).map keyChar := by
  rw [List.map_ofFn]
  rfl

theorem length_keyText (k : Key) : (keyText k).length = 10 := List.length_ofFn

/-- Putting a value's sequence back in order gives the value. -/
theorem ofSeq_getD_ofFn_seq {n : Nat} (v : BitVec n) :
    (ofSeq n fun i => (List.ofFn (seq v)).getD i.val false) = v :=
  eq_of_seq_eq fun i => by simp

theorem parseKey_keyText (k : Key) : parseKey (keyText k) = .key k := by
  rw [parseKey, if_pos (length_keyText k), keyText_eq_map, keyBits_map_keyChar]
  exact congrArg ParsedKey.key (ofSeq_getD_ofFn_seq k)

/-- Ten bits in writing are some key's text. -/
theorem exists_keyText_of_length {bs : List Bool} (h : bs.length = 10) : ∃ k, bs.map keyChar = keyText k := by
  have hbits : List.ofFn (seq (ofSeq 10 fun i => bs[i.val])) = bs := by
    rw [List.ofFn_congr h.symm]
    simp
  exact ⟨_, by rw [keyText_eq_map, hbits]⟩

/-- A string is some key's text, or it has a defect that R140 names and ParseKey rejects it. -/
theorem parseKey_cases (cs : List Char) :
    (∃ k, cs = keyText k) ∨
    ((cs.length ≠ 10 ∨ ∃ c ∈ cs, c ≠ '0' ∧ c ≠ '1') ∧ parseKey cs = .invalidKeyError) := by
  by_cases hlength : cs.length = 10
  · obtain ⟨bs, rfl⟩ | ⟨hbad, hnone⟩ := keyBits_cases cs
    · exact .inl (exists_keyText_of_length (by simpa using hlength))
    · exact .inr ⟨.inr hbad, by rw [parseKey, if_pos hlength, hnone]⟩
  · exact .inr ⟨.inl hlength, if_neg hlength⟩

theorem parseKey_eq_key_iff (cs : List Char) (k : Key) : parseKey cs = .key k ↔ cs = keyText k := by
  constructor
  · intro h
    obtain ⟨k', rfl⟩ | ⟨-, hinvalid⟩ := parseKey_cases cs
    · rw [ParsedKey.key.inj ((parseKey_keyText k').symm.trans h)]
    · exact nomatch hinvalid.symm.trans h
  · rintro rfl
    exact parseKey_keyText k

theorem keyChar_eq_zero_or_one (b : Bool) : keyChar b = '0' ∨ keyChar b = '1' := by
  cases b <;> decide

/-- A key's text has no character that R140 rejects. -/
theorem eq_zero_or_one_of_mem_keyText {k : Key} {c : Char} (h : c ∈ keyText k) : c = '0' ∨ c = '1' := by
  obtain ⟨i, rfl⟩ := List.mem_ofFn.1 h
  exact keyChar_eq_zero_or_one _

theorem parseKey_eq_invalidKeyError_iff (cs : List Char) :
    parseKey cs = .invalidKeyError ↔ cs.length ≠ 10 ∨ ∃ c ∈ cs, c ≠ '0' ∧ c ≠ '1' := by
  obtain ⟨k, rfl⟩ | ⟨hbad, hinvalid⟩ := parseKey_cases cs
  · refine iff_of_false (fun h => nomatch (parseKey_keyText k).symm.trans h) ?_
    rintro (hlength | ⟨c, hmem, h0, h1⟩)
    · exact hlength (length_keyText k)
    · exact (eq_zero_or_one_of_mem_keyText hmem).elim h0 h1
  · exact iff_of_true hinvalid hbad

theorem lineActions_setkey_invalid {cs : List Char} (h : parseKey cs = .invalidKeyError) :
    lineActions (.setkey cs) = [.reportInvalidKey] := by
  rw [lineActions, h]

theorem lineActions_setkey_key {cs : List Char} {k : Key} (h : parseKey cs = .key k) :
    lineActions (.setkey cs) = [.drive (commandPort (encode (.loadkey k)))] := by
  rw [lineActions, h]

theorem runActions_setkey_invalid {cs : List Char} (h : parseKey cs = .invalidKeyError) (s : State) :
    runActions (lineActions (.setkey cs)) s = .next (s, [.invalidKeyError]) := by
  rw [lineActions_setkey_invalid h]
  rfl

theorem runActions_setkey_key {cs : List Char} {k : Key} (h : parseKey cs = .key k) (s : State) :
    runActions (lineActions (.setkey cs)) s = .next (installKey k (deriveRoundKeys k) (consumePorts s), []) := by
  rw [lineActions_setkey_key h]
  exact runActions_cons (hostAct_drive_encode (exec_loadkey k _)) (runActions_nil _)

/-- Settles O50: ParseKey inverts the writing of a key, every other string has a defect that R140 names, and SETKEY
follows the parse. -/
theorem parseKeyIsStrict : Obligations.ParseKeyIsStrict :=
  ⟨parseKey_eq_key_iff, parseKey_eq_invalidKeyError_iff,
    fun _ s => ⟨fun h => runActions_setkey_invalid h s, fun _ h => runActions_setkey_key h s⟩,
    by decide, by decide, by decide, by decide, by decide, by decide⟩

end Sys2Proof.Machine
end

section
/-!
SUPPORT. The exceptions (60_exceptions.md R172, R173) and the idle step (R184): a step that raises an error or does
nothing, stated at the state that has consumed its port values.
-/

namespace Sys2Proof

/-- The illegal rows of `decode_cases` have no command's fields, and a command's row has no illegal fields (R172). -/
theorem decode_eq_illegal_iff {w : CmdWord} : (∃ why, decode w = .illegal why) ↔
    (opField w = 0b00#2 ∨ ((opField w = 0b10#2 ∨ opField w = 0b11#2) ∧ reservedField w ≠ 0b00#2)) := by
  constructor
  · rintro ⟨why, h⟩
    obtain ⟨-, hdec⟩ | ⟨-, -, hdec⟩ | ⟨-, -, hdec⟩ | ⟨hop, -⟩ | ⟨hop, hreserved, -⟩ := decode_cases w
    · exact nomatch hdec.symm.trans h
    · exact nomatch hdec.symm.trans h
    · exact nomatch hdec.symm.trans h
    · exact .inl hop
    · exact .inr ⟨hop, hreserved⟩
  · rintro (hop | ⟨hop, hreserved⟩)
    · exact ⟨_, decode_of_op_zero hop⟩
    · exact ⟨_, decode_of_reserved_ne_zero hop hreserved⟩

end Sys2Proof

namespace Sys2Proof.Machine

theorem step_of_illegal {s : State} {why : IllegalReason} (hrst : (samplePorts s).rst = false)
    (hvalid : (samplePorts s).cmdValid = true) (hword : decode (samplePorts s).cmd = .illegal why) :
    step s = .next (raiseError .illegal (consumePorts s)) := by
  rw [step_eq, stepPort, portAction_of_cmdValid hrst hvalid]
  exact execute_of_illegal hword (consumePorts s)

theorem step_of_idle {s : State} (hrst : (samplePorts s).rst = false) (hvalid : (samplePorts s).cmdValid = false) :
    step s = .next (consumePorts s) := by
  rw [step_eq, stepPort, portAction_of_not_cmdValid hrst hvalid]

/-- Settles O7: the illegal rows of the decoder, and the step that raises ILLEGAL. -/
theorem illegalWordsReportIllegal : Obligations.IllegalWordsReportIllegal :=
  ⟨fun _ => decode_eq_illegal_iff, fun _ _ => step_of_illegal⟩

/-- Settles O11: `raiseError` is R171's list of writes. -/
theorem noKeyWithoutAKey : Obligations.NoKeyWithoutAKey :=
  fun b _ hkey => ⟨exec_enc_unkeyed b hkey, exec_dec_unkeyed b hkey⟩

/-- Settles O4, by induction on the idle entries: one idle step consumes one entry, and the rest run from there. -/
theorem idleStepsChangeNothing : Obligations.IdleStepsChangeNothing := by
  intro ps rest s hidle hinputs
  induction ps generalizing s with
  | nil =>
    obtain rfl : s.inputs = rest := hinputs
    rfl
  | cons p ps ih =>
    obtain ⟨⟨hrst, hvalid⟩, hidle⟩ := List.forall_mem_cons.1 hidle
    have hsample : samplePorts s = p := samplePorts_cons hinputs
    have hstep : step s = .next (consumePorts s) := step_of_idle (hsample ▸ hrst) (hsample ▸ hvalid)
    have hconsumed : (consumePorts s).inputs = ps ++ rest := congrArg List.tail hinputs
    exact (run_succ_of_step hstep ps.length).trans (ih (consumePorts s) hidle hconsumed)

end Sys2Proof.Machine
end

section
/-!
SUPPORT. Progress and reset (70_reset_and_hazards.md R190, R191, R194): every step has a next state, and that of a step
with `rst` = 1 is `resetCore`'s, whatever else stands on the ports.
-/

namespace Sys2Proof.Machine

theorem step_of_rst {s : State} (hrst : (samplePorts s).rst = true) : step s = .next (resetCore (consumePorts s)) := by
  rw [step_eq, stepPort, portAction_of_rst hrst]

theorem exists_deliverIfKeyed_eq_next (d : Block) (s : State) : ∃ t, deliverIfKeyed d s = .next t := by
  cases hkey : s.kv with
  | true => exact ⟨_, deliverIfKeyed_keyed d hkey⟩
  | false => exact ⟨_, deliverIfKeyed_unkeyed d hkey⟩

/-- A command without its key is a next state too (60 R171). -/
theorem exists_exec_eq_next (i : Instr) (s : State) : ∃ t, exec i s = .next t := by
  cases i with
  | loadkey k => exact ⟨_, exec_loadkey k s⟩
  | enc b => exact exists_deliverIfKeyed_eq_next _ s
  | dec b => exact exists_deliverIfKeyed_eq_next _ s

/-- Settles O3, by what the ports carry: a reset, nothing, a command, or an illegal word. -/
theorem everyStepHasASuccessor : Obligations.EveryStepHasASuccessor := by
  intro s
  cases hrst : (samplePorts s).rst with
  | true => exact ⟨_, step_of_rst hrst⟩
  | false =>
    cases hvalid : (samplePorts s).cmdValid with
    | false => exact ⟨_, step_of_idle hrst hvalid⟩
    | true =>
      cases hword : decode (samplePorts s).cmd with
      | command i =>
        rw [stepRunsTheDecodedCommand s i hrst hvalid hword]
        exact exists_exec_eq_next i _
      | illegal why => exact ⟨_, step_of_illegal hrst hvalid hword⟩

theorem statusOf_of_flags_clear {s : State} (hkv : s.kv = false) (hdv : s.dv = false) (herr : s.err = 0b00#2) :
    statusOf s = 0x00#8 := by
  rw [statusOf, hkv, hdv, herr]
  rfl

@[simp] theorem statusOf_resetCore (s : State) : statusOf (resetCore s) = 0x00#8 := statusOf_of_flags_clear rfl rfl rfl

@[simp] theorem statusOf_reset : statusOf State.reset = 0x00#8 := statusOf_of_flags_clear rfl rfl rfl

/-- Settles O5: a step with `rst` = 1 ends in `resetCore`. -/
theorem resetClearsTheFlags : Obligations.ResetClearsTheFlags :=
  ⟨fun s hrst => ⟨resetCore (consumePorts s), step_of_rst hrst, resetCore_kv _, resetCore_dv _, resetCore_err _,
    statusOf_resetCore _, resetCore_inputs _⟩, reset_kv, reset_dv, reset_err, statusOf_reset⟩

/-- Settles O22: as after any reset, all three flags are 0, so no clause speaks of a draw. -/
theorem resetHasTheInvariant : Obligations.ResetHasTheInvariant :=
  ⟨nofun, nofun, fun _ => rfl, errCode_ne_unassigned .ok⟩

end Sys2Proof.Machine
end

section
/-!
SUPPORT. States that look alike to the host (70_reset_and_hazards.md R192, 10_state.md R32), operation by operation and
then step by step.
-/

namespace Sys2Proof.Machine

theorem samplePorts_congr {s t : State} (h : s.inputs = t.inputs) : samplePorts s = samplePorts t :=
  congrArg (List.headD · idlePort) h

/-- A reset clears what shows the draws, so the two need nothing in common but the coming inputs (R190). -/
theorem resetCore_looksLike {s t : State} (hinputs : s.inputs = t.inputs) : (resetCore s).LooksLike (resetCore t) :=
  ⟨rfl, rfl, rfl, hinputs, nofun, nofun⟩

namespace State.LooksLike

variable {s t : State}

theorem consumePorts (h : s.LooksLike t) : (consumePorts s).LooksLike (consumePorts t) := by
  obtain ⟨hkv, hdv, herr, hinputs, hkeys, hdout⟩ := h
  exact ⟨hkv, hdv, herr, congrArg List.tail hinputs, hkeys, hdout⟩

theorem presentPort (h : s.LooksLike t) (p : PortIn) : (presentPort p s).LooksLike (presentPort p t) := by
  obtain ⟨hkv, hdv, herr, hinputs, hkeys, hdout⟩ := h
  exact ⟨hkv, hdv, herr, congrArg (p :: List.tail ·) hinputs, hkeys, hdout⟩

/-- An error hides DOUT. -/
theorem raiseError (h : s.LooksLike t) (e : ErrCode) : (raiseError e s).LooksLike (raiseError e t) := by
  obtain ⟨hkv, -, -, hinputs, hkeys, -⟩ := h
  exact ⟨hkv, rfl, rfl, hinputs, hkeys, nofun⟩

/-- LOADKEY makes the round keys count, and writes the same ones to both. -/
theorem installKey (h : s.LooksLike t) (k : Key) (keys : RoundKey × RoundKey) :
    (installKey k keys s).LooksLike (installKey k keys t) := by
  obtain ⟨-, -, -, hinputs, -, -⟩ := h
  exact ⟨rfl, rfl, rfl, hinputs, fun _ => ⟨rfl, rfl⟩, nofun⟩

/-- A delivered result makes DOUT count, and is the same in both. -/
theorem deliverBlock (h : s.LooksLike t) (d : Block) : (deliverBlock d s).LooksLike (deliverBlock d t) := by
  obtain ⟨hkv, -, -, hinputs, hkeys, -⟩ := h
  exact ⟨hkv, rfl, rfl, hinputs, hkeys, fun _ => rfl⟩

end State.LooksLike

/-- Both outcomes are next states, and these look alike. -/
def NextsLookAlike (x y : Host.Outcome State Fault Refusal) : Prop :=
  ∃ s1 t1 : State, x = .next s1 ∧ y = .next t1 ∧ s1.LooksLike t1

namespace State.LooksLike

variable {s t : State}

/-- A block command whose result is computed from the round keys: without a key they differ, but then nothing is
delivered. -/
theorem deliverIfKeyed (h : s.LooksLike t) (result : RoundKey → RoundKey → Block) :
    NextsLookAlike (deliverIfKeyed (result s.k1 s.k2) s) (deliverIfKeyed (result t.k1 t.k2) t) := by
  have ⟨hkv, _, _, _, hkeys, _⟩ := h
  cases hkey : s.kv with
  | true =>
    obtain ⟨hk1, hk2⟩ := hkeys hkey
    rw [hk1, hk2]
    exact ⟨_, _, deliverIfKeyed_keyed _ hkey, deliverIfKeyed_keyed _ (hkv ▸ hkey), h.deliverBlock _⟩
  | false => exact ⟨_, _, deliverIfKeyed_unkeyed _ hkey, deliverIfKeyed_unkeyed _ (hkv ▸ hkey), h.raiseError .noKey⟩

theorem exec (h : s.LooksLike t) (i : Instr) : NextsLookAlike (exec i s) (exec i t) := by
  cases i with
  | loadkey k => exact ⟨_, _, exec_loadkey k s, exec_loadkey k t, h.installKey k _⟩
  | enc b => exact h.deliverIfKeyed (encryptBlock sboxes b)
  | dec b => exact h.deliverIfKeyed (decryptBlock sboxes b)

theorem execute (h : s.LooksLike t) (w : CmdWord) : NextsLookAlike (execute w s) (execute w t) := by
  cases hword : decode w with
  | command i =>
    rw [execute_of_decode hword, execute_of_decode hword]
    exact h.exec i
  | illegal why => exact ⟨_, _, execute_of_illegal hword s, execute_of_illegal hword t, h.raiseError .illegal⟩

theorem stepPort (h : s.LooksLike t) (p : PortIn) : NextsLookAlike (stepPort p s) (stepPort p t) := by
  have ⟨_, _, _, hinputs, _, _⟩ := h
  unfold Machine.stepPort
  cases portAction p with
  | reset => exact ⟨_, _, rfl, rfl, resetCore_looksLike hinputs⟩
  | command w => exact h.execute w
  | idle => exact ⟨_, _, rfl, rfl, h⟩

theorem step (h : s.LooksLike t) : NextsLookAlike (step s) (step t) := by
  have ⟨_, _, _, hinputs, _, _⟩ := h
  rw [step_eq, step_eq, samplePorts_congr hinputs]
  exact h.consumePorts.stepPort (samplePorts t)

end State.LooksLike

/-- Settles O23: the next states of look-alike states look alike, and so do those of one reset from any two states. -/
theorem stepsKeepStatesLookingAlike : Obligations.StepsKeepStatesLookingAlike := by
  constructor
  · intro s t s1 t1 halike hs ht
    obtain ⟨s', t', hs', ht', halike'⟩ := halike.step
    obtain rfl := Host.Outcome.next.inj (hs.symm.trans hs')
    obtain rfl := Host.Outcome.next.inj (ht.symm.trans ht')
    exact halike'
  · intro s t s1 t1 hinputs hrst hs ht
    obtain rfl := Host.Outcome.next.inj (hs.symm.trans (step_of_rst hrst))
    obtain rfl := Host.Outcome.next.inj (ht.symm.trans (step_of_rst (samplePorts_congr hinputs ▸ hrst)))
    exact resetCore_looksLike (congrArg List.tail hinputs)

/-- A command presented after a reset finds no key (R191). -/
theorem step_block_command_after_reset {i : Instr} (s : State)
    (hexec : ∀ {u : State}, u.kv = false → exec i u = .next (raiseError .noKey u)) :
    step (presentPort (commandPort (encode i)) (resetCore s)) =
      .next (raiseError .noKey (consumePorts (resetCore s))) :=
  (step_of_encoded (presentPort_inputs _ _)).trans (hexec rfl)

/-- Settles O6: both resets are `resetCore`, which leaves the following command without a key. -/
theorem resetBeatsACommand : Obligations.ResetBeatsACommand :=
  fun s _ _ hp hq => ⟨resetCore (consumePorts s), resetCore (consumePorts s), step_of_rst hp, step_of_rst hq,
    resetCore_looksLike rfl, resetCore_kv _, resetCore_dv _, resetCore_err _, statusOf_resetCore _, resetCore_inputs _,
    fun b => ⟨step_block_command_after_reset _ (exec_enc_unkeyed b),
      step_block_command_after_reset _ (exec_dec_unkeyed b)⟩⟩

end Sys2Proof.Machine
end

section
/-!
SUPPORT. The host's actions on states that look alike (70_reset_and_hazards.md R192, R197; 10_state.md R32): each reads
only what the flags admit, so a run sees the same from both.
-/

namespace Sys2Proof.Machine

/-- Two outcomes of host actions that no host tells apart: the same observations and end states that look alike, or the
same reason to stop. -/
inductive RunsLookAlike : Host.Outcome (State × List Observation) Fault Refusal →
    Host.Outcome (State × List Observation) Fault Refusal → Prop where
  | next {s t : State} (h : s.LooksLike t) (o : List Observation) : RunsLookAlike (.next (s, o)) (.next (t, o))
  | fault (f : Fault) : RunsLookAlike (.fault f) (.fault f)
  | refused (r : Refusal) : RunsLookAlike (.refused r) (.refused r)

namespace State.LooksLike

variable {s t : State}

/-- STATUS is made of the flags. -/
theorem readStatus_eq (h : s.LooksLike t) : readStatus s = readStatus t := by
  obtain ⟨hkv, hdv, herr, -, -, -⟩ := h
  rw [readStatus, readStatus, statusPort, statusPort, statusOf, statusOf, hkv, hdv, herr]

/-- A DOUT that the host uses is valid, and then it is the same. -/
theorem readDout_eq (h : s.LooksLike t) : readDout s = readDout t := by
  obtain ⟨-, hdv, -, -, -, hdout⟩ := h
  cases hvalid : s.dv with
  | true => rw [readDout_valid hvalid, readDout_valid (hdv ▸ hvalid), hdout hvalid]
  | false => rw [readDout_not_valid hvalid, readDout_not_valid (hdv ▸ hvalid)]

/-- The conditional read of ENCB and DECB uses DOUT only if it is valid. -/
theorem doutIfValid_eq (h : s.LooksLike t) :
    (if s.dv then Observation.dout (doutPort s) else .doutNotUsed) =
      if t.dv then Observation.dout (doutPort t) else .doutNotUsed := by
  obtain ⟨-, hdv, -, -, -, hdout⟩ := h
  cases hvalid : s.dv with
  | true => rw [← hdv, hvalid, doutPort, doutPort, hdout hvalid]
  | false =>
    rw [← hdv, hvalid]
    rfl

theorem hostAct (h : s.LooksLike t) (a : HostAction) : RunsLookAlike (hostAct a s) (hostAct a t) := by
  cases a with
  | drive p =>
    obtain ⟨s1, t1, hs, ht, h1⟩ := (h.presentPort p).step
    rw [Machine.hostAct, hs, Machine.hostAct, ht]
    exact .next h1 []
  | readStatus =>
    rw [Machine.hostAct, Machine.hostAct, h.readStatus_eq]
    cases readStatus t with
    | next v => exact .next h _
    | fault f => exact .fault f
    | refused r => exact .refused r
  | readDout =>
    rw [Machine.hostAct, Machine.hostAct, h.readDout_eq]
    cases readDout t with
    | next v => exact .next h _
    | fault f => exact .fault f
    | refused r => exact .refused r
  | readDoutIfValid =>
    rw [Machine.hostAct, Machine.hostAct, h.doutIfValid_eq]
    exact .next h _
  | readKey r => exact .fault .keyNotReadable
  | reportInvalidKey => exact .next h _

/-- By induction on the actions: the first one sees the same from both and leaves the rest look-alike states. -/
theorem runActions (h : s.LooksLike t) (acts : List HostAction) :
    RunsLookAlike (runActions acts s) (runActions acts t) := by
  induction acts generalizing s t with
  | nil => exact .next h []
  | cons a acts ih =>
    have hact := h.hostAct a
    rw [Machine.runActions, Machine.runActions]
    generalize Machine.hostAct a s = x, Machine.hostAct a t = y at hact ⊢
    cases hact with
    | @next s1 t1 h1 o =>
      have hrest := ih h1
      dsimp only
      generalize Machine.runActions acts s1 = x, Machine.runActions acts t1 = y at hrest ⊢
      cases hrest with
      | next h2 os => exact .next h2 (o ++ os)
      | fault f => exact .fault f
      | refused r => exact .refused r
    | fault f => exact .fault f
    | refused r => exact .refused r

end State.LooksLike

/-- Settles O24, by induction on the host's actions, each of which keeps the states looking alike. -/
theorem runsObserveNothingHidden : Obligations.RunsObserveNothingHidden := by
  intro acts s t halike
  have hrun := halike.runActions acts
  generalize runActions acts s = x, runActions acts t = y at hrun ⊢
  cases hrun with
  | next h o => exact ⟨rfl, h⟩
  | fault f => rfl
  | refused r => rfl

end Sys2Proof.Machine
end

section
/-!
SUPPORT. Runs from power-on (70_reset_and_hazards.md R193, R195).
-/

namespace Sys2Proof.Machine

theorem runFromPowerOn_of_no_reset {acts : List HostAction}
    (h : ∀ p rest, acts = .drive p :: rest → p.rst = false) : runFromPowerOn acts = .refused .noResetFirst := by
  cases acts with
  | nil => rfl
  | cons a acts =>
    cases a with
    | drive p => simp [runFromPowerOn, h p acts rfl]
    | readStatus | readDout | readDoutIfValid | readKey | reportInvalidKey => rfl

theorem runFromPowerOn_reset (acts : List HostAction) :
    runFromPowerOn (lineActions .reset ++ acts) = runActions acts State.reset := rfl

/-- Settles O28: SETKEY installs the key over the first reset's state, and ENCB then finds it. -/
theorem bootThenEncrypt : Obligations.BootThenEncrypt := by
  refine ⟨fun _ => runFromPowerOn_of_no_reset, fun cs k b hparse => ?_⟩
  have hsetkey := runActions_setkey_key hparse State.reset
  have hencb := runActions_blockLine (enc_deliversResult b)
    (installKey_kv k (deriveRoundKeys k) (consumePorts State.reset))
  rw [List.append_assoc, runFromPowerOn_reset]
  exact ⟨_, runActions_append hsetkey hencb⟩

end Sys2Proof.Machine
end

section
/-!
SUPPORT. A table row's bits presented as the next command (30_encoding.md R50, log entries 1 and 9).
-/

namespace Sys2Proof

/-- A table row's bits read as a command exactly if they make a command word that decodes to it. -/
theorem decodeTableWord_eq_some_iff {nbits w : Nat} {i : Instr} :
    decodeTableWord nbits w = some i ↔ ∃ c, tableWord nbits w = some c ∧ decode c = .command i := by
  unfold decodeTableWord
  cases tableWord nbits w with
  | none => simp
  | some c => cases hdecode : decode c <;> simp [hdecode]

end Sys2Proof

namespace Sys2Proof.Machine

theorem tableWordPort_of_tableWord {nbits w : Nat} {c : CmdWord} (h : tableWord nbits w = some c) :
    tableWordPort nbits w = commandPort c := by
  rw [tableWordPort, h]

/-- The step after presenting a table row's bits executes their command word. -/
theorem step_withFetchWord {nbits w : Nat} {c : CmdWord} (h : tableWord nbits w = some c) (s : State) :
    step (s.withFetchWord nbits w) = execute c (consumePorts s) := by
  rw [State.withFetchWord, step_presentPort, tableWordPort_of_tableWord h, stepPort_commandPort]

/-- Settles O2: the bits make a command word, the step executes that word, and the word decodes to the command. -/
theorem presentedWordIsTheNextCommand : Obligations.PresentedWordIsTheNextCommand := by
  intro s nbits w i hcommand
  obtain ⟨c, hword, hdecode⟩ := decodeTableWord_eq_some_iff.1 hcommand
  rw [step_withFetchWord hword]
  exact execute_of_decode hdecode (consumePorts s)

end Sys2Proof.Machine
end
